-- ==== Sys2Proof/Word.lean ====
section
/-! DEFINITION. The bit vectors of trap_dispatch_decoder (10_state.md R46).

A machine word has XLEN bits, 32 or 64; the model keeps it in 64 bits, zero above bit XLEN-1 (log 1). -/

namespace Sys2Proof

/-- A machine word, a timer value, or the data ports (10_state.md R46). -/
abbrev Word := BitVec 64

/-- The word on the port `cmd` (30_encoding.md R80). -/
abbrev CommandWord := BitVec 32

/-- The 12-bit register selector of a command (30_encoding.md R80, R82). -/
abbrev Selector := BitVec 12

/-- The 5-bit immediate of a command (30_encoding.md R80, R83). -/
abbrev Imm5 := BitVec 5

end Sys2Proof
end

