-- ==== Sys2Proof/Config.lean ====
section
/-! DEFINITION. The parameters of the block (00_scope.md R8) and the free values.

Each parameter is a field of `Config`, with the decided value as its default where the spec has one; State carries one
`Config` that no step changes, so a statement about every state is about every value of it (log 2). A parameter the spec
leaves OPEN is, in `Config.platform`, a constant without a value. -/

namespace Sys2Proof

/-- The two values of the parameter XLEN (00_scope.md R8). -/
inductive XLen where
  | x32
  | x64
deriving DecidableEq, Repr, Inhabited

/-- The three interrupt sources (60_exceptions.md R162). -/
inductive IrqSource where
  | software
  | timer
  | external
deriving DecidableEq, Repr

/-- The seven control/status registers (10_state.md R25). -/
inductive Csr where
  | mstatus
  | mie
  | mtvec
  | mepc
  | mcause
  | mtval
  | mip
deriving DecidableEq, Repr

/-- The eight names of the timer space (30_encoding.md R82). -/
inductive TimerReg where
  | time
  | timecmp
  | period
  | last
  | timeLo
  | timeHi
  | timecmpLo
  | timecmpHi
deriving DecidableEq, Repr

/-- The parameters of 00_scope.md R8 that number the registers, fields and causes, each with its decided value. -/
structure Numbers where
  /-- `CSR_STATUS`. -/
  csrStatus : Selector := 0x300#12
  /-- `CSR_IE`. -/
  csrIe : Selector := 0x304#12
  /-- `CSR_TVEC`. -/
  csrTvec : Selector := 0x305#12
  /-- `CSR_EPC`. -/
  csrEpc : Selector := 0x341#12
  /-- `CSR_CAUSE`. -/
  csrCause : Selector := 0x342#12
  /-- `CSR_TVAL`. -/
  csrTval : Selector := 0x343#12
  /-- `CSR_IP`. -/
  csrIp : Selector := 0x344#12
  /-- `STATUS_MIE`, a bit position in mstatus (10_state.md R26). -/
  statusMie : Nat := 3
  /-- `STATUS_MPIE`. -/
  statusMpie : Nat := 7
  /-- `STATUS_MPP`: the lower of the two bits of the field. -/
  statusMpp : Nat := 11
  /-- `IRQ_MSI`, a cause code and a bit position in mie and mip (60_exceptions.md R162). -/
  irqMsi : Nat := 3
  /-- `IRQ_MTI`. -/
  irqMti : Nat := 7
  /-- `IRQ_MEI`. -/
  irqMei : Nat := 11
  /-- `EXC_ILLEGAL`, the cause code the hart presents for an instruction it cannot execute (60_exceptions.md R161). -/
  excIllegal : Nat := 2
  /-- `EXC_ECALL_M`, the cause code of an environment call (60_exceptions.md R161). -/
  excEcallM : Nat := 11
  /-- `DIRECT_ALIGN`, the granule in bytes of the address mtvec holds (10_state.md R28). -/
  directAlign : Nat := 4
deriving DecidableEq, Repr

/-- The parameters of 00_scope.md R8. -/
structure Config extends Numbers where
  /-- Width of a machine word; OPEN. -/
  xlen : XLen
  /-- Added to the saved return address after an environment call. -/
  ilenBytes : Nat := 4
  /-- Bytes between two vectored entry points. -/
  vecStride : Nat := 4
  /-- Number of slots of the vector table. -/
  vecSlots : Nat := 16
  /-- Required alignment in bytes of the table base in vectored mode. -/
  vecAlign : Nat := 64
  /-- The order in which simultaneously deliverable interrupts are taken, first wins. -/
  irqPrio : List IrqSource := [.external, .software, .timer]
  /-- Ticks of the counter in one second; OPEN. -/
  timerHz : Nat
  /-- Time units in one second, for TMR_CONV. -/
  unitPerSec : Nat := 1000000
  /-- Bits 63:2 of RESET_VECTOR; OPEN. Its bits 1:0 are 0 because every target is a multiple of 4
  (42_trap_dispatch.md R154; DEDUCED, log 14). -/
  resetVectorHigh : BitVec 62
  /-- Value of the interrupt-enable register after reset. -/
  resetMieReg : Word := 0
  /-- Whether a wait ends on a pending and enabled interrupt even when the global enable is 0. -/
  wakeIgnoresGlobal : Bool := true
  /-- Where a platform maps mtime, 8 bytes (20_memory.md R61); OPEN. -/
  mtimeAddr : Word
  /-- Where a platform maps mtimecmp, 8 bytes (20_memory.md R61); OPEN. -/
  mtimecmpAddr : Word
  /-- Where a platform maps the software-interrupt request, a word outside the block (20_memory.md R61,
  60_exceptions.md R181); OPEN. -/
  msipAddr : Word
deriving DecidableEq, Repr

namespace Config

/-! Selectors of the timer space (30_encoding.md R82). -/

def tmrTime : Selector := 0x000#12
def tmrTimecmp : Selector := 0x001#12
def tmrPeriod : Selector := 0x002#12
def tmrLast : Selector := 0x003#12
def tmrTimeLo : Selector := 0x008#12
def tmrTimeHi : Selector := 0x009#12
def tmrTimecmpLo : Selector := 0x00A#12
def tmrTimecmpHi : Selector := 0x00B#12

/-! The OPEN parameters (00_scope.md R8): no value is given here, so nothing proved about `Config.platform` can rest on one. -/

opaque openXlen : XLen
/-- TIMER_HZ is not 0 (41_timer_ops.md R124): it is one more than this. -/
opaque openTimerHzLessOne : Nat
opaque openResetVectorHigh : BitVec 62
opaque openMtimeAddr : Word
opaque openMtimecmpAddr : Word
opaque openMsipAddr : Word

/-- The source of the values the spec calls `any` (00_scope.md R9): the n-th draw of a run. DESIGN CHOICE log 6. -/
opaque freeValue : Nat → Word

/-- The configuration of `State.reset`: the decided defaults of 00_scope.md R8, and for an OPEN parameter a constant
without a value. -/
def platform : Config where
  xlen := openXlen
  timerHz := openTimerHzLessOne + 1
  resetVectorHigh := openResetVectorHigh
  mtimeAddr := openMtimeAddr
  mtimecmpAddr := openMtimecmpAddr
  msipAddr := openMsipAddr

end Config

end Sys2Proof
end

