-- ==== Sys2Proof/Syntax.lean ====
section
/-! DEFINITION. The commands: one constructor for each row of the opcode table (30_encoding.md R81).

A selector stays the 12 bits of the word, because a word with any selector is a word of its row and the check that
the selector names a register is made after the match (30_encoding.md R96). -/

namespace Sys2Proof

/-- The 14 commands (30_encoding.md R81). An operand on `wdata` is not part of the word (R80): State holds the port. -/
inductive Instr where
  /-- `CSR_READ csr` (40_csr_ops.md R103). -/
  | csrRead (sel : Selector)
  /-- `CSR_WRITE csr, value` (40_csr_ops.md R104). -/
  | csrWrite (sel : Selector)
  /-- `CSR_SET csr, mask` (40_csr_ops.md R105). -/
  | csrSet (sel : Selector)
  /-- `CSR_CLEAR csr, mask` (40_csr_ops.md R106). -/
  | csrClear (sel : Selector)
  /-- `CSR_WRITEI csr, imm5` (40_csr_ops.md R107). -/
  | csrWriteI (sel : Selector) (imm : Imm5)
  /-- `CSR_SETI csr, imm5` (40_csr_ops.md R108). -/
  | csrSetI (sel : Selector) (imm : Imm5)
  /-- `CSR_CLEARI csr, imm5` (40_csr_ops.md R109). -/
  | csrClearI (sel : Selector) (imm : Imm5)
  /-- `TMR_READ treg` (41_timer_ops.md R121). -/
  | tmrRead (sel : Selector)
  /-- `TMR_WRITE treg, value` (41_timer_ops.md R122). -/
  | tmrWrite (sel : Selector)
  /-- `TMR_REARM` (41_timer_ops.md R123). -/
  | tmrRearm
  /-- `TMR_CONV duration` (41_timer_ops.md R124). -/
  | tmrConv
  /-- `TRAP_RET` (42_trap_dispatch.md R146). -/
  | trapRet
  /-- `TRAP_SVC` (42_trap_dispatch.md R145). -/
  | trapSvc
  /-- `WAIT` (42_trap_dispatch.md R147). -/
  | wait
deriving DecidableEq, Repr

end Sys2Proof
end

