-- ==== Sys2Proof/Decode.lean ====
section
/-! DEFINITION. The command word (30_encoding.md R80 to R86, R95, R96): its fields, the decoder, the registers the
selectors name, and the encoder. -/

namespace Sys2Proof

/-- Why a word is reserved (30_encoding.md R85). Each is answered `ILLEGAL`. -/
inductive DecodeError where
  /-- A bit of `zero`, word[27:17], is 1. -/
  | zeroField
  /-- `op` is 4 or 15. -/
  | reservedOp
  /-- `imm5` is not 0 in a command without an immediate. -/
  | immediateField
  /-- `sel` is not 0 in a command without a selector. -/
  | selectorField
deriving DecidableEq, Repr

/-- `word[31:28]` (30_encoding.md R80). -/
def opField (w : CommandWord) : BitVec 4 := w.extractLsb' 28 4

/-- `word[27:17]` (30_encoding.md R80). -/
def zeroField (w : CommandWord) : BitVec 11 := w.extractLsb' 17 11

/-- `word[16:12]` (30_encoding.md R80). -/
def immField (w : CommandWord) : Imm5 := w.extractLsb' 12 5

/-- `word[11:0]` (30_encoding.md R80). -/
def selField (w : CommandWord) : Selector := w.extractLsb' 0 12

/-- A command that has a selector and no immediate: step (3) of 30_encoding.md R95. -/
def selectorForm (w : CommandWord) (i : Instr) : Except DecodeError Instr :=
  if immField w = 0 then .ok i else .error .immediateField

/-- A command without fields: steps (3) and (4) of 30_encoding.md R95. -/
def bareForm (w : CommandWord) (i : Instr) : Except DecodeError Instr :=
  if immField w = 0 then
    if selField w = 0 then .ok i else .error .selectorField
  else .error .immediateField

/-- The decoder: steps (1) to (4) of 30_encoding.md R95, in order. Step (5), whether the selector names a register, is
made when the command is performed (R96). -/
def decode (w : CommandWord) : Except DecodeError Instr :=
  if zeroField w = 0 then
    match (opField w).toNat with
    | 0x0 => selectorForm w (.csrRead (selField w))
    | 0x1 => selectorForm w (.csrWrite (selField w))
    | 0x2 => selectorForm w (.csrSet (selField w))
    | 0x3 => selectorForm w (.csrClear (selField w))
    | 0x5 => .ok (.csrWriteI (selField w) (immField w))
    | 0x6 => .ok (.csrSetI (selField w) (immField w))
    | 0x7 => .ok (.csrClearI (selField w) (immField w))
    | 0x8 => selectorForm w (.tmrRead (selField w))
    | 0x9 => selectorForm w (.tmrWrite (selField w))
    | 0xA => bareForm w .tmrRearm
    | 0xB => bareForm w .tmrConv
    | 0xC => bareForm w .trapRet
    | 0xD => bareForm w .trapSvc
    | 0xE => bareForm w .wait
    | _ => .error .reservedOp
  else .error .zeroField

/-- The selector of a CSR (00_scope.md R8, 10_state.md R25). -/
def Csr.selector (c : Config) (r : Csr) : Selector :=
  match r with
  | .mstatus => c.csrStatus
  | .mie => c.csrIe
  | .mtvec => c.csrTvec
  | .mepc => c.csrEpc
  | .mcause => c.csrCause
  | .mtval => c.csrTval
  | .mip => c.csrIp

/-- The seven CSRs. -/
def Csr.all : List Csr := [.mstatus, .mie, .mtvec, .mepc, .mcause, .mtval, .mip]

/-- The register a selector names in a CSR command (10_state.md R25, 30_encoding.md R82). -/
def Csr.ofSelector (c : Config) (sel : Selector) : Option Csr := Csr.all.find? fun r => r.selector c == sel

/-- The register a selector names in `TMR_READ` and `TMR_WRITE` (30_encoding.md R82). -/
def TimerReg.ofSelector (sel : Selector) : Option TimerReg :=
  if sel = Config.tmrTime then some .time
  else if sel = Config.tmrTimecmp then some .timecmp
  else if sel = Config.tmrPeriod then some .period
  else if sel = Config.tmrLast then some .last
  else if sel = Config.tmrTimeLo then some .timeLo
  else if sel = Config.tmrTimeHi then some .timeHi
  else if sel = Config.tmrTimecmpLo then some .timecmpLo
  else if sel = Config.tmrTimecmpHi then some .timecmpHi
  else none

/-- The selector of a name of the timer space (30_encoding.md R82). -/
def TimerReg.selector : TimerReg → Selector
  | .time => Config.tmrTime
  | .timecmp => Config.tmrTimecmp
  | .period => Config.tmrPeriod
  | .last => Config.tmrLast
  | .timeLo => Config.tmrTimeLo
  | .timeHi => Config.tmrTimeHi
  | .timecmpLo => Config.tmrTimecmpLo
  | .timecmpHi => Config.tmrTimecmpHi

/-- Whether `TMR_WRITE` may write the register: the counter is read-only (30_encoding.md R82, R86). -/
def TimerReg.writable : TimerReg → Bool
  | .time | .timeLo | .timeHi => false
  | .timecmp | .period | .last | .timecmpLo | .timecmpHi => true

/-- The bits of an instruction as the opcode table numbers them, given to the decoder. A command is one 32-bit word on a
port, so it has no byte order. -/
def decodeTableWord (nbits w : Nat) : Option Instr :=
  match decode (BitVec.ofNat 32 (w % 2 ^ nbits)) with
  | .ok i => some i
  | .error _ => none

/-- `word = (op << 28) | (imm5 << 12) | sel` (30_encoding.md R80). -/
def packWord (op : BitVec 4) (imm : Imm5) (sel : Selector) : CommandWord :=
  (op.setWidth 32 <<< 28) ||| (imm.setWidth 32 <<< 12) ||| sel.setWidth 32

/-- The word of a command (30_encoding.md R80, R81). -/
def encode : Instr → CommandWord
  | .csrRead sel => packWord 0x0 0 sel
  | .csrWrite sel => packWord 0x1 0 sel
  | .csrSet sel => packWord 0x2 0 sel
  | .csrClear sel => packWord 0x3 0 sel
  | .csrWriteI sel imm => packWord 0x5 imm sel
  | .csrSetI sel imm => packWord 0x6 imm sel
  | .csrClearI sel imm => packWord 0x7 imm sel
  | .tmrRead sel => packWord 0x8 0 sel
  | .tmrWrite sel => packWord 0x9 0 sel
  | .tmrRearm => packWord 0xA 0 0
  | .tmrConv => packWord 0xB 0 0
  | .trapRet => packWord 0xC 0 0
  | .trapSvc => packWord 0xD 0 0
  | .wait => packWord 0xE 0 0

/-- The `mask` of the command's row in the opcode table (30_encoding.md R96). -/
def rowMask : Instr → CommandWord
  | .csrRead _ | .csrWrite _ | .csrSet _ | .csrClear _ | .tmrRead _ | .tmrWrite _ => 0xFFFFF000#32
  | .csrWriteI _ _ | .csrSetI _ _ | .csrClearI _ _ => 0xFFFE0000#32
  | .tmrRearm | .tmrConv | .trapRet | .trapSvc | .wait => 0xFFFFFFFF#32

/-- The `match` of the command's row in the opcode table (30_encoding.md R96). -/
def rowMatch : Instr → CommandWord
  | .csrRead _ => 0x00000000#32
  | .csrWrite _ => 0x10000000#32
  | .csrSet _ => 0x20000000#32
  | .csrClear _ => 0x30000000#32
  | .csrWriteI _ _ => 0x50000000#32
  | .csrSetI _ _ => 0x60000000#32
  | .csrClearI _ _ => 0x70000000#32
  | .tmrRead _ => 0x80000000#32
  | .tmrWrite _ => 0x90000000#32
  | .tmrRearm => 0xA0000000#32
  | .tmrConv => 0xB0000000#32
  | .trapRet => 0xC0000000#32
  | .trapSvc => 0xD0000000#32
  | .wait => 0xE0000000#32

end Sys2Proof
end

