-- ==== Sys2Proof/Machine/Bits.lean ====
section
/-! DEFINITION. Fields of a machine word (00_scope.md R9). -/

namespace Sys2Proof.Machine

/-- XLEN as a number of bits (00_scope.md R8). -/
def xlenBits : XLen → Nat
  | .x32 => 32
  | .x64 => 64

/-- `v[XLEN-1:0]`, zero-extended to 64 bits (00_scope.md R9, R10). -/
def truncXlen (x : XLen) (v : Word) : Word :=
  match x with
  | .x32 => (v.setWidth 32).setWidth 64
  | .x64 => v

/-- The word with the one bit `n` equal to `b`. -/
def bitAt (b : Bool) (n : Nat) : Word := (BitVec.ofBool b).setWidth 64 <<< n

/-- The multiple of `a` at or below `v` (10_state.md R28). -/
def alignDown (a : Nat) (v : Word) : Word := BitVec.ofNat 64 (v.toNat / a * a)

/-- `[v[XLEN-1:2], 0b00]`: a pc, whose bits 1:0 are hard-wired 0 whatever the parameters are (10_state.md R30). -/
def alignPc (v : Word) : Word := v &&& ~~~3#64

/-- `pc[1:0] = 0` (30_encoding.md R89). -/
def pcAligned (v : Word) : Bool := v.extractLsb' 0 2 == 0#2

/-- `v[XLEN-2:0]`, the width of a cause code (10_state.md R31, R46). -/
def causeCode (x : XLen) (v : Word) : Word :=
  match x with
  | .x32 => (v.setWidth 31).setWidth 64
  | .x64 => (v.setWidth 63).setWidth 64

/-- `v[XLEN-1]`, the "top bit" of a machine word (00_scope.md R9). -/
def topBit (x : XLen) (v : Word) : Bool := v.getLsbD (xlenBits x - 1)

/-- `v[31:0]` (10_state.md R38). -/
def lowHalf (v : Word) : BitVec 32 := v.extractLsb' 0 32

/-- `v[63:32]` (10_state.md R38). -/
def highHalf (v : Word) : BitVec 32 := v.extractLsb' 32 32

/-- RESET_VECTOR: an XLEN-bit multiple of 4 (00_scope.md R8, 42_trap_dispatch.md R154). -/
def resetVector (c : Config) : Word := truncXlen c.xlen (c.resetVectorHigh ++ 0#2)

end Sys2Proof.Machine
end

