-- ==== Sys2Proof/Machine/State.lean ====
section
/-! DEFINITION. The state of the block as plain data (10_state.md R20), what its three agents may do to it (00_scope.md
R12), the reasons a step may stop, and the state right after reset. -/

namespace Sys2Proof.Machine

/-- The stored fields of mstatus; the rest of the register is hard-wired (10_state.md R26). -/
structure MStatus where
  /-- The global interrupt enable, bit 3. -/
  mie : Bool
  /-- The value of MIE before the last trap entry, bit 7. -/
  mpie : Bool
deriving DecidableEq, Repr

/-- The stored fields of mie, the interrupt-enable register; the rest is hard-wired (10_state.md R27). -/
structure InterruptEnable where
  /-- Enable of the machine software interrupt, bit 3. -/
  msie : Bool
  /-- Enable of the machine timer interrupt, bit 7. -/
  mtie : Bool
  /-- Enable of the machine external interrupt, bit 11. -/
  meie : Bool
deriving DecidableEq, Repr

/-- The two values of the port `resp` (00_scope.md R10). -/
inductive Resp where
  | ok
  | illegal
deriving DecidableEq, Repr

/-- What a step drives on the output ports (00_scope.md R10). Every step whose outcome is `OK` drives `resp` (R13); another
port is none where the step's rule drives nothing on it (log 10). -/
structure Outputs where
  resp : Option Resp := none
  rdata : Option Word := none
  trapTaken : Option Bool := none
  nextPc : Option Word := none
deriving DecidableEq, Repr

/-- The width of a load or store of the hart (20_memory.md R63). -/
inductive AccessWidth where
  | bytes1
  | bytes2
  | bytes4
  | bytes8
deriving DecidableEq, Repr

/-- One step of one agent: the step alphabet of 00_scope.md R12, and the hart's loads and stores that a platform maps to
timer commands (20_memory.md R61). -/
inductive Input where
  /-- The hart drives a command word on `cmd` and an operand on `wdata`. -/
  | command (word : CommandWord) (wdata : Word)
  /-- The hart loads at an address (20_memory.md R61). -/
  | load (addr : Word) (width : AccessWidth)
  /-- The hart stores a value at an address (20_memory.md R61). -/
  | store (addr : Word) (width : AccessWidth) (value : Word)
  /-- The hart presents a synchronous exception (60_exceptions.md R168). -/
  | exc (code pc tval : Word)
  /-- The hart presents the address of its next instruction at an instruction boundary (60_exceptions.md R167). -/
  | irqPoll (pc : Word)
  /-- One increment of the counter (41_timer_ops.md R125). -/
  | tick
  /-- The platform drives the two interrupt levels (60_exceptions.md R179). -/
  | pin (msip meip : Bool)
  /-- The platform resets the block (70_reset_and_hazards.md R200). -/
  | reset
deriving DecidableEq, Repr

/-- The two faults of the spec (10_state.md R41): behaviour the source calls undefined. Safe: the model stops where a
chip goes on in some way nobody says. -/
inductive Fault where
  /-- Trap entry while the dispatcher is uninstalled (60_exceptions.md R169 step 1). Safe. -/
  | trapWhileUninstalled
  /-- Trap entry in vectored mode with a misaligned table base (60_exceptions.md R169 step 2). Safe. -/
  | misalignedVectorBase
deriving DecidableEq, Repr

/-- The refusals: inputs to which the spec gives no meaning. Safe: nothing is proved past one. -/
inductive Refusal where
  /-- An instruction without a meaning in this model; no arm of `exec` raises it. Safe. -/
  | notModelled (mnemonic : String)
  /-- A write that would store 1 in the reserved bit of mtvec (40_csr_ops.md R102), raised by `csrStore`. Safe. -/
  | reservedTvecMode
  /-- An interrupt code of VEC_SLOTS or more in vectored mode (60_exceptions.md R169 step 3), raised by `trapTarget`.
  Safe. -/
  | vectorSlotOutOfRange
  /-- `EXC` or `IRQ_POLL` with `pc[1:0]` not 0 (30_encoding.md R89). Safe. -/
  | misalignedPc
  /-- A load or store in a mapped timer window of a width or alignment that is no command (20_memory.md R63). Safe. -/
  | unsupportedTimerAccess
  /-- A load or store that touches no mapped timer window: it does not reach the block (20_memory.md R60, log 13). Safe. -/
  | notATimerAddress
deriving DecidableEq, Repr

/-- The state of the block. `config`, `inputs`, `draws`, `wdata` and `outputs` are the model's (INVENTORY.md, State). -/
structure State where
  /-- The parameters (00_scope.md R8); no step changes them. -/
  config : Config
  /-- status (10_state.md R26). -/
  mstatus : MStatus
  /-- interrupt-enable (10_state.md R27). -/
  mie : InterruptEnable
  /-- trap-vector-base (10_state.md R28). -/
  mtvec : Word
  /-- Whether mtvec has been written since reset (10_state.md R29). -/
  tvecInstalled : Bool
  /-- exception-pc (10_state.md R30). -/
  mepc : Word
  /-- cause (10_state.md R31). -/
  mcause : Word
  /-- trap-value (10_state.md R32). -/
  mtval : Word
  /-- The free-running counter (10_state.md R34). -/
  mtime : Word
  /-- The compare register (10_state.md R35). -/
  mtimecmp : Word
  /-- The tick period (10_state.md R36). -/
  period : Word
  /-- The cached last observed time (10_state.md R37). -/
  lastTime : Word
  /-- Level of the machine-software interrupt request (10_state.md R39). -/
  msipIn : Bool
  /-- Level of the machine-external interrupt request (10_state.md R39). -/
  meipIn : Bool
  /-- Whether the hart is in the low-power wait (10_state.md R40). -/
  waiting : Bool
  /-- The sticky fault flag of a model (10_state.md R41). -/
  faultFlag : Option Fault
  /-- The operand port (00_scope.md R10). -/
  wdata : Word
  /-- What the last step drove on the output ports (00_scope.md R10). -/
  outputs : Outputs
  /-- What the agents do next, oldest first (00_scope.md R11, R12). -/
  inputs : List Input
  /-- How many free values have been drawn (00_scope.md R9). -/
  draws : Nat
deriving DecidableEq, Repr

/-- The outcomes of a step of this machine. -/
abbrev Result := Host.Outcome State Fault Refusal

/-- The state right after reset (10_state.md R43, 70_reset_and_hazards.md R200). A register whose reset value the spec
leaves unspecified is 0 here: DESIGN CHOICE, unsafe, log 3 (the input levels: log 4, log 29; the model's own fields: log 5).
The event RESET draws free values instead (log 6). That `next_pc` is driven at reset is the model's choice (log 30). -/
def State.reset : State where
  config := Config.platform
  mstatus := { mie := false, mpie := false }
  mie :=
    { msie := Config.platform.resetMieReg.getLsbD Config.platform.irqMsi
      mtie := Config.platform.resetMieReg.getLsbD Config.platform.irqMti
      meie := Config.platform.resetMieReg.getLsbD Config.platform.irqMei }
  mtvec := 0
  tvecInstalled := false
  mepc := 0
  mcause := 0
  mtval := 0
  mtime := 0
  mtimecmp := 0
  period := 0
  lastTime := 0
  msipIn := false
  meipIn := false
  waiting := false
  faultFlag := none
  wdata := 0
  outputs := { resp := some .ok, nextPc := some (resetVector Config.platform) }
  inputs := []
  draws := 0

end Sys2Proof.Machine
end

