-- ==== Sys2Proof/Machine/Operands.lean ====
section
/-! DEFINITION. The operand forms of the commands (30_encoding.md R83, R84) and of the events (00_scope.md R10). -/

namespace Sys2Proof.Machine

/-- `wdata[XLEN-1:0]`, the operand of a CSR command (30_encoding.md R84). -/
def wdataOperand (s : State) : Word := truncXlen s.config.xlen s.wdata

/-- `wdata[31:0]`, the operand of a write to half of a timer register (30_encoding.md R84). -/
def wdataHalf (s : State) : BitVec 32 := lowHalf s.wdata

/-- `zext_XLEN(imm5)` (30_encoding.md R83). -/
def immOperand (imm : Imm5) : Word := imm.setWidth 64

/-- What a port of XLEN bits carries of a value (00_scope.md R10; DEDUCED, log 15). -/
def portWord (s : State) (v : Word) : Word := truncXlen s.config.xlen v

/-- What the port `exc_code`, of XLEN-1 bits, carries of a value (00_scope.md R10; DEDUCED, log 15). -/
def portCode (s : State) (v : Word) : Word := causeCode s.config.xlen v

end Sys2Proof.Machine
end

