-- ==== Sys2Proof/Machine/Flags.lean ====
section
/-! DEFINITION. The one-bit conditions of the block. It has no arithmetic condition codes (10_state.md R23); these are the
derived signals of 10_state.md R42 and the decoded cause (42_trap_dispatch.md R141, R142), all functions of the state. -/

namespace Sys2Proof.Machine

/-- The timer interrupt request: `mtime >=u mtimecmp` (41_timer_ops.md R126). -/
def State.mtip (s : State) : Bool := decide (s.mtimecmp.toNat ≤ s.mtime.toNat)

/-- The pending bit of a source (10_state.md R33, 60_exceptions.md R162). -/
def State.pending (s : State) : IrqSource → Bool
  | .software => s.msipIn
  | .timer => s.mtip
  | .external => s.meipIn

/-- The enable bit of a source (10_state.md R27, 60_exceptions.md R162). -/
def State.enabled (s : State) : IrqSource → Bool
  | .software => s.mie.msie
  | .timer => s.mie.mtie
  | .external => s.mie.meie

/-- One bit of `pend_en` (10_state.md R42). -/
def State.pendEn (s : State) (k : IrqSource) : Bool := s.pending k && s.enabled k

/-- `pend_en != 0` (10_state.md R42). -/
def State.anyPendEn (s : State) : Bool := s.pendEn .software || s.pendEn .timer || s.pendEn .external

/-- `deliverable` (10_state.md R42). -/
def State.deliverable (s : State) : Bool := s.mstatus.mie && s.anyPendEn

/-- `wake` (10_state.md R42). -/
def State.wake (s : State) : Bool := if s.config.wakeIgnoresGlobal then s.anyPendEn else s.deliverable

/-- The states of the dispatcher (42_trap_dispatch.md R140). -/
inductive Mode where
  | uninstalled
  | direct
  | vectored
deriving DecidableEq, Repr

/-- The dispatcher's state, read off `tvec_installed` and `mtvec.MODE` (10_state.md R29). -/
def State.mode (s : State) : Mode :=
  if s.tvecInstalled then
    if s.mtvec.getLsbD 0 then .vectored else .direct
  else .uninstalled

/-- `base` (10_state.md R28, R42), a multiple of `DIRECT_ALIGN`. -/
def State.base (s : State) : Word := alignDown s.config.directAlign (truncXlen s.config.xlen s.mtvec)

/-- `base mod VEC_ALIGN = 0`, which matters in vectored mode only (42_trap_dispatch.md R144). -/
def State.baseAligned (s : State) : Bool := s.base.toNat % s.config.vecAlign == 0

/-- The number of a source: its cause code, and its bit in mie and mip (00_scope.md R8, 60_exceptions.md R162). -/
def irqNumber (c : Config) (k : IrqSource) : Nat :=
  match k with
  | .software => c.irqMsi
  | .timer => c.irqMti
  | .external => c.irqMei

/-- The cause code of a source as a machine word (60_exceptions.md R162). -/
def irqCode (c : Config) (k : IrqSource) : Word := BitVec.ofNat 64 (irqNumber c k)

/-- The first source in `IRQ_PRIO` that is pending and enabled (60_exceptions.md R166, R167). -/
def State.firstPending (s : State) : Option IrqSource := s.config.irqPrio.find? s.pendEn

/-- `decode_cause(c)`: the interrupt flag and the code (42_trap_dispatch.md R141). -/
def decodeCause (x : XLen) (c : Word) : Bool × Word := (topBit x c, causeCode x c)

/-- The five handler variants (42_trap_dispatch.md R142). -/
inductive Variant where
  | unrecognized
  | timer
  | software
  | external
  | exception
deriving DecidableEq, Repr

/-- The code of a variant on the port `variant` (30_encoding.md R94). -/
def Variant.code : Variant → BitVec 3
  | .unrecognized => 0
  | .timer => 1
  | .software => 2
  | .external => 3
  | .exception => 4

/-- `variant(c)` (42_trap_dispatch.md R142). -/
def variantOf (c : Config) (cause : Word) : Variant :=
  match decodeCause c.xlen cause with
  | (true, k) =>
    if k = irqCode c .timer then .timer
    else if k = irqCode c .software then .software
    else if k = irqCode c .external then .external
    else .unrecognized
  | (false, _) => .exception

/-- The port `variant`, which carries `variant(mcause)` at all times (42_trap_dispatch.md R142). -/
def State.variant (s : State) : Variant := variantOf s.config s.mcause

/-- Whether the cause register holds an environment call from machine mode (42_trap_dispatch.md R145). -/
def State.causeIsEcall (s : State) : Bool :=
  decodeCause s.config.xlen s.mcause == (false, BitVec.ofNat 64 s.config.excEcallM)

end Sys2Proof.Machine
end

