-- ==== Sys2Proof/Machine/Ops.lean ====
section
/-! DEFINITION. The shared operations: reading and writing the registers, answering a command, taking a trap and
returning from one. -/

namespace Sys2Proof.Machine

/-! ## Answers -/

/-- Outcome `OK` with a value on `rdata` (00_scope.md R13, 30_encoding.md R84). -/
def State.answerOk (s : State) (rdata : Word) : State :=
  { s with outputs := { resp := some .ok, rdata := some rdata } }

/-- Outcome `ILLEGAL`: `resp` = 1, `rdata` = 0, no other change (00_scope.md R13, 30_encoding.md R85). -/
def State.answerIllegal (s : State) : State :=
  { s with outputs := { resp := some .illegal, rdata := some 0 } }

/-! ## The control/status registers -/

/-- A word with one bit for each source, at the source's number (10_state.md R27, R33). -/
def sourceBits (c : Config) (b : IrqSource → Bool) : Word :=
  bitAt (b .software) (irqNumber c .software) ||| bitAt (b .timer) (irqNumber c .timer) |||
    bitAt (b .external) (irqNumber c .external)

/-- `csr_read` (40_csr_ops.md R101). While uninstalled, mtvec reads as the value it holds (log 21). -/
def csrRead (s : State) : Csr → Word
  | .mstatus => bitAt s.mstatus.mie s.config.statusMie ||| bitAt s.mstatus.mpie s.config.statusMpie |||
      (3#64 <<< s.config.statusMpp)
  | .mie => sourceBits s.config s.enabled
  | .mtvec => truncXlen s.config.xlen s.mtvec
  | .mepc => alignPc (truncXlen s.config.xlen s.mepc)
  | .mcause => truncXlen s.config.xlen s.mcause
  | .mtval => truncXlen s.config.xlen s.mtval
  | .mip => sourceBits s.config s.pending

/-- The fields of mstatus a written value reaches (10_state.md R26). -/
def statusOfWord (c : Config) (v : Word) : MStatus :=
  { mie := v.getLsbD c.statusMie, mpie := v.getLsbD c.statusMpie }

/-- The fields of mie a written value reaches (10_state.md R27). -/
def enableOfWord (c : Config) (v : Word) : InterruptEnable :=
  { msie := v.getLsbD c.irqMsi, mtie := v.getLsbD c.irqMti, meie := v.getLsbD c.irqMei }

/-- Writing mtvec (40_csr_ops.md R102, R113). `installs` is true of the full writes `CSR_WRITE` and `CSR_WRITEI`: only
they store while the dispatcher is uninstalled. -/
def tvecStore (installs : Bool) (new : Word) (s : State) : Result :=
  if s.tvecInstalled || installs then
    if new.getLsbD 1 then .refused .reservedTvecMode
    else .next { s with mtvec := truncXlen s.config.xlen new, tvecInstalled := true }
  else .next s

/-- `csr_store` (40_csr_ops.md R102). -/
def csrStore (installs : Bool) (r : Csr) (new : Word) (s : State) : Result :=
  match r with
  | .mstatus => .next { s with mstatus := statusOfWord s.config new }
  | .mie => .next { s with mie := enableOfWord s.config new }
  | .mtvec => tvecStore installs new s
  | .mepc => .next { s with mepc := alignPc (truncXlen s.config.xlen new) }
  | .mcause => .next { s with mcause := truncXlen s.config.xlen new }
  | .mtval => .next { s with mtval := truncXlen s.config.xlen new }
  | .mip => .next s

/-- The shape of a writing CSR command (40_csr_ops.md R100): read, compute the new value from the old, store, and answer
the old value; `ILLEGAL` where the selector names no CSR (30_encoding.md R86). -/
def csrUpdate (sel : Selector) (installs : Bool) (newOf : Word → Word) (s : State) : Result :=
  match Csr.ofSelector s.config sel with
  | none => .next s.answerIllegal
  | some r => csrStore installs r (newOf (csrRead s r)) (s.answerOk (csrRead s r))

/-! ## The timer registers -/

/-- `tmr_read` (41_timer_ops.md R120). -/
def tmrReadValue (s : State) : TimerReg → Word
  | .time => s.mtime
  | .timecmp => s.mtimecmp
  | .period => s.period
  | .last => s.lastTime
  | .timeLo => (lowHalf s.mtime).setWidth 64
  | .timeHi => (highHalf s.mtime).setWidth 64
  | .timecmpLo => (lowHalf s.mtimecmp).setWidth 64
  | .timecmpHi => (highHalf s.mtimecmp).setWidth 64

/-- What `TMR_WRITE` stores; none for the read-only counter (41_timer_ops.md R122). -/
def tmrStore (s : State) : TimerReg → Option State
  | .time => none
  | .timecmp => some { s with mtimecmp := s.wdata }
  | .period => some { s with period := s.wdata }
  | .last => some { s with lastTime := s.wdata }
  | .timeLo => none
  | .timeHi => none
  | .timecmpLo => some { s with mtimecmp := highHalf s.mtimecmp ++ wdataHalf s }
  | .timecmpHi => some { s with mtimecmp := wdataHalf s ++ lowHalf s.mtimecmp }

/-- The tick count of a duration: unbounded product, then division rounded down, then modulo 2^64 (41_timer_ops.md
R124). -/
def ticksOf (c : Config) (d : Word) : Word := BitVec.ofNat 64 (d.toNat * c.timerHz / c.unitPerSec)

/-! ## The wait state -/

/-- The end of a `TICK` or `PIN` step: the wait ends when `wake` is 1 (10_state.md R40, 42_trap_dispatch.md R147). -/
def State.wakeIfReady (s : State) : State := { s with waiting := s.waiting && !s.wake }

/-! ## Traps -/

/-- Where control goes on trap entry, or why the entry has no meaning: steps 1 to 3 of 60_exceptions.md R169, and
`trap_target` (42_trap_dispatch.md R143). -/
def trapTarget (isInterrupt : Bool) (code : Word) (s : State) : Host.Outcome Word Fault Refusal :=
  match s.mode with
  | .uninstalled => .fault .trapWhileUninstalled
  | .direct => .next s.base
  | .vectored =>
    if s.baseAligned then
      if isInterrupt then
        if s.config.vecSlots ≤ code.toNat then .refused .vectorSlotOutOfRange
        else .next (truncXlen s.config.xlen (s.base + BitVec.ofNat 64 (s.config.vecStride * code.toNat)))
      else .next s.base
    else .fault .misalignedVectorBase

/-- Step 4 of 60_exceptions.md R169: what trap entry saves and changes. -/
def State.enterTrap (s : State) (isInterrupt : Bool) (code pc tval target : Word) : State :=
  { s with
    mepc := alignPc pc
    mcause := bitAt isInterrupt (xlenBits s.config.xlen - 1) ||| code
    mtval := tval
    mstatus := { mie := false, mpie := s.mstatus.mie }
    outputs := { resp := some .ok, trapTaken := some true, nextPc := some target } }

/-- `take_trap`, the one entry sequence of exceptions and interrupts (60_exceptions.md R169). -/
def takeTrap (isInterrupt : Bool) (code pc tval : Word) (s : State) : Result :=
  match trapTarget isInterrupt code s with
  | .next target => .next (s.enterTrap isInterrupt code pc tval target)
  | .fault f => .fault f
  | .refused r => .refused r

/-- The return from a trap (42_trap_dispatch.md R146). -/
def State.returnFromTrap (s : State) : State :=
  { s with
    mstatus := { mie := s.mstatus.mpie, mpie := true }
    outputs := { resp := some .ok, rdata := some 0, nextPc := some (csrRead s .mepc) } }

end Sys2Proof.Machine
end

