-- ==== Sys2Proof/Machine/CsrCommands.lean ====
section
/-! DEFINITION. The meanings of the seven CSR commands (40_csr_ops.md). -/

namespace Sys2Proof.Machine

/-- `CSR_READ` (40_csr_ops.md R103). -/
def execCsrRead (sel : Selector) (s : State) : Result :=
  match Csr.ofSelector s.config sel with
  | none => .next s.answerIllegal
  | some r => .next (s.answerOk (csrRead s r))

/-- `CSR_WRITE` (40_csr_ops.md R104). -/
def execCsrWrite (sel : Selector) (s : State) : Result :=
  csrUpdate sel true (fun _ => wdataOperand s) s

/-- `CSR_SET` (40_csr_ops.md R105). -/
def execCsrSet (sel : Selector) (s : State) : Result :=
  csrUpdate sel false (fun old => old ||| wdataOperand s) s

/-- `CSR_CLEAR` (40_csr_ops.md R106). -/
def execCsrClear (sel : Selector) (s : State) : Result :=
  csrUpdate sel false (fun old => old &&& ~~~wdataOperand s) s

/-- `CSR_WRITEI` (40_csr_ops.md R107). -/
def execCsrWriteI (sel : Selector) (imm : Imm5) (s : State) : Result :=
  csrUpdate sel true (fun _ => immOperand imm) s

/-- `CSR_SETI` (40_csr_ops.md R108). -/
def execCsrSetI (sel : Selector) (imm : Imm5) (s : State) : Result :=
  csrUpdate sel false (fun old => old ||| immOperand imm) s

/-- `CSR_CLEARI` (40_csr_ops.md R109). -/
def execCsrClearI (sel : Selector) (imm : Imm5) (s : State) : Result :=
  csrUpdate sel false (fun old => old &&& ~~~immOperand imm) s

end Sys2Proof.Machine
end

