-- ==== Sys2Proof/Machine/TimerCommands.lean ====
section
/-! DEFINITION. The meanings of the four timer commands (41_timer_ops.md). -/

namespace Sys2Proof.Machine

/-- `TMR_READ` (41_timer_ops.md R121). -/
def execTmrRead (sel : Selector) (s : State) : Result :=
  match TimerReg.ofSelector sel with
  | none => .next s.answerIllegal
  | some r => .next (s.answerOk (tmrReadValue s r))

/-- `TMR_WRITE` (41_timer_ops.md R122). -/
def execTmrWrite (sel : Selector) (s : State) : Result :=
  match (TimerReg.ofSelector sel).bind (tmrStore s) with
  | none => .next s.answerIllegal
  | some t => .next (t.answerOk 0)

/-- `TMR_REARM`: the period is added to the present time, never to the previous deadline (41_timer_ops.md R123, R128). -/
def execTmrRearm (s : State) : Result :=
  .next ({ s with lastTime := s.mtime, mtimecmp := s.mtime + s.period }.answerOk (s.mtime + s.period))

/-- `TMR_CONV` (41_timer_ops.md R124). -/
def execTmrConv (s : State) : Result :=
  .next (s.answerOk (ticksOf s.config s.wdata))

end Sys2Proof.Machine
end

