-- ==== Sys2Proof/Machine/TrapCommands.lean ====
section
/-! DEFINITION. The meanings of the three dispatcher commands (42_trap_dispatch.md). -/

namespace Sys2Proof.Machine

/-- `TRAP_RET` (42_trap_dispatch.md R146). -/
def execTrapRet (s : State) : Result := .next s.returnFromTrap

/-- The saved return address after the default policy: an environment call is stepped over, every other cause leaves it
(42_trap_dispatch.md R145). -/
def servicedEpc (s : State) : Word :=
  if s.causeIsEcall then truncXlen s.config.xlen (csrRead s .mepc + BitVec.ofNat 64 s.config.ilenBytes) else s.mepc

/-- `TRAP_SVC` (42_trap_dispatch.md R145). -/
def execTrapSvc (s : State) : Result :=
  .next ({ s with mepc := servicedEpc s }.answerOk (s.variant.code.setWidth 64))

/-- `WAIT` (42_trap_dispatch.md R147). -/
def execWait (s : State) : Result :=
  .next ({ s with waiting := s.waiting || !s.wake }.answerOk 0)

end Sys2Proof.Machine
end

