-- ==== Sys2Proof/Machine/Dispatch.lean ====
section
/-! DEFINITION. The meaning of every command: one arm for each row of the opcode table. -/

namespace Sys2Proof.Machine

def exec (i : Instr) (s : State) : Host.Outcome State Fault Refusal :=
  match i with
  | .csrRead sel => Sys2Proof.Machine.execCsrRead sel s
  | .csrWrite sel => Sys2Proof.Machine.execCsrWrite sel s
  | .csrSet sel => Sys2Proof.Machine.execCsrSet sel s
  | .csrClear sel => Sys2Proof.Machine.execCsrClear sel s
  | .csrWriteI sel imm => Sys2Proof.Machine.execCsrWriteI sel imm s
  | .csrSetI sel imm => Sys2Proof.Machine.execCsrSetI sel imm s
  | .csrClearI sel imm => Sys2Proof.Machine.execCsrClearI sel imm s
  | .tmrRead sel => Sys2Proof.Machine.execTmrRead sel s
  | .tmrWrite sel => Sys2Proof.Machine.execTmrWrite sel s
  | .tmrRearm => Sys2Proof.Machine.execTmrRearm s
  | .tmrConv => Sys2Proof.Machine.execTmrConv s
  | .trapRet => Sys2Proof.Machine.execTrapRet s
  | .trapSvc => Sys2Proof.Machine.execTrapSvc s
  | .wait => Sys2Proof.Machine.execWait s

end Sys2Proof.Machine
end

