-- ==== Sys2Proof/Machine/Events.lean ====
section
/-! DEFINITION. The events (00_scope.md R12), and which timer command a load or store of the hart is (20_memory.md R61). -/

namespace Sys2Proof.Machine

/-- `EXC(code, pc, tval)` (60_exceptions.md R168). -/
def excEvent (code pc tval : Word) (s : State) : Result :=
  if pcAligned pc then takeTrap false (portCode s code) (portWord s pc) (portWord s tval) s
  else .refused .misalignedPc

/-- An `IRQ_POLL` that takes nothing (60_exceptions.md R167). -/
def State.pollNothing (s : State) (pc : Word) : State :=
  { s with outputs := { resp := some .ok, trapTaken := some false, nextPc := some pc } }

/-- `IRQ_POLL(pc)` (60_exceptions.md R167). -/
def irqPollEvent (pc : Word) (s : State) : Result :=
  if pcAligned pc then
    if s.deliverable then
      match s.firstPending with
      | some k => takeTrap true (irqCode s.config k) (portWord s pc) 0 s
      | none => .next (s.pollNothing (portWord s pc))
    else .next (s.pollNothing (portWord s pc))
  else .refused .misalignedPc

/-- `TICK` (41_timer_ops.md R125). -/
def State.tick (s : State) : State := { s with mtime := s.mtime + 1, outputs := { resp := some .ok } }.wakeIfReady

/-- `PIN(msip, meip)` (60_exceptions.md R179). -/
def State.drivePins (s : State) (msip meip : Bool) : State :=
  { s with msipIn := msip, meipIn := meip, outputs := { resp := some .ok } }.wakeIfReady

/-- The n-th free value drawn from now on (00_scope.md R9; log 6). -/
def State.draw (s : State) (n : Nat) : Word := Config.freeValue (s.draws + n)

/-- `RESET` (70_reset_and_hazards.md R200): each `any` is a free value, kept to the width of its register (log 6, log 19).
The fault flag is not changed. Nor are the input levels, as R200 says; 93_implementation_defined.md U16 and 10_state.md R39
call them `any` after reset, and that they stay is the model's choice between the two: DESIGN CHOICE, unsafe, log 29.
That `next_pc` is driven is what R200, 10_state.md R43 and 42_trap_dispatch.md R154 say; 91_not_in_source.md N20 says that
the block does not drive it at reset, and following the rules is the model's choice: DESIGN CHOICE, unsafe, log 30. -/
def State.resetEvent (s : State) : State :=
  { s with
    mstatus := { mie := false, mpie := (s.draw 0).getLsbD 0 }
    mie := enableOfWord s.config s.config.resetMieReg
    tvecInstalled := false
    mtvec := truncXlen s.config.xlen (s.draw 1)
    mepc := alignPc (truncXlen s.config.xlen (s.draw 2))
    mcause := truncXlen s.config.xlen (s.draw 3)
    mtval := truncXlen s.config.xlen (s.draw 4)
    mtime := s.draw 5
    mtimecmp := s.draw 6
    period := s.draw 7
    lastTime := s.draw 8
    waiting := false
    draws := s.draws + 9
    outputs := { resp := some .ok, nextPc := some (resetVector s.config) } }

/-- The state a model records after a fault (00_scope.md R13, 10_state.md R41): the flag is set, and every register, level
and hidden bit of the block holds a free value, kept to the width of its register (log 11). -/
def State.raiseFlag (s : State) (f : Fault) : State :=
  { s with
    faultFlag := some f
    mstatus := { mie := (s.draw 0).getLsbD 0, mpie := (s.draw 1).getLsbD 0 }
    mie := { msie := (s.draw 2).getLsbD 0, mtie := (s.draw 3).getLsbD 0, meie := (s.draw 4).getLsbD 0 }
    mtvec := truncXlen s.config.xlen (s.draw 5)
    tvecInstalled := (s.draw 6).getLsbD 0
    mepc := alignPc (truncXlen s.config.xlen (s.draw 7))
    mcause := truncXlen s.config.xlen (s.draw 8)
    mtval := truncXlen s.config.xlen (s.draw 9)
    mtime := s.draw 10
    mtimecmp := s.draw 11
    period := s.draw 12
    lastTime := s.draw 13
    msipIn := (s.draw 14).getLsbD 0
    meipIn := (s.draw 15).getLsbD 0
    waiting := (s.draw 16).getLsbD 0
    draws := s.draws + 17
    outputs := {} }

/-- The number of bytes of an access. -/
def accessBytes : AccessWidth → Nat
  | .bytes1 => 1
  | .bytes2 => 2
  | .bytes4 => 4
  | .bytes8 => 8

/-- The timer selector of a supported access to a register mapped at `base`: the whole register, its low half at `base`,
its high half at `base + 4`, each naturally aligned (20_memory.md R61, R62, R63). -/
def windowSelector (base : Nat) (whole lo hi : Selector) (addr : Nat) (width : AccessWidth) : Option Selector :=
  match width with
  | .bytes8 => if addr = base ∧ addr % 8 = 0 then some whole else none
  | .bytes4 =>
    if addr % 4 = 0 then
      if addr = base then some lo else if addr = base + 4 then some hi else none
    else none
  | .bytes2 => none
  | .bytes1 => none

/-- Whether an access overlaps the 8 bytes at `base`. -/
def touchesWindow (base addr bytes : Nat) : Bool := decide (addr < base + 8) && decide (base < addr + bytes)

/-- The timer selector a load or store stands for (20_memory.md R61), or why it stands for none (20_memory.md R63,
log 13). -/
def mappedSelector (c : Config) (addr : Word) (width : AccessWidth) : Except Refusal Selector :=
  match windowSelector c.mtimeAddr.toNat Config.tmrTime Config.tmrTimeLo Config.tmrTimeHi addr.toNat width with
  | some sel => .ok sel
  | none =>
    match windowSelector c.mtimecmpAddr.toNat Config.tmrTimecmp Config.tmrTimecmpLo Config.tmrTimecmpHi addr.toNat
        width with
    | some sel => .ok sel
    | none =>
      if touchesWindow c.mtimeAddr.toNat addr.toNat (accessBytes width) ||
          touchesWindow c.mtimecmpAddr.toNat addr.toNat (accessBytes width) then .error .unsupportedTimerAccess
      else .error .notATimerAddress

/-- Whether the hart makes this input; it makes none while the block waits (10_state.md R40). -/
def Input.fromHart : Input → Bool
  | .command _ _ | .load _ _ | .store _ _ _ | .exc _ _ _ | .irqPoll _ => true
  | .tick | .pin _ _ | .reset => false

/-- The input that moves next, and those left: the oldest one, but while the block waits the oldest that is not the
hart's (10_state.md R40; DEDUCED, log 8). -/
def nextInput (waiting : Bool) : List Input → Option (Input × List Input)
  | [] => none
  | i :: rest =>
    if waiting && i.fromHart then (nextInput waiting rest).map fun p => (p.1, i :: p.2)
    else some (i, rest)

end Sys2Proof.Machine
end

