-- ==== Sys2Proof/Machine/Perform.lean ====
section
/-! DEFINITION. One step of one agent (00_scope.md R12, R13). -/

namespace Sys2Proof.Machine

/-- A command word on `cmd` with its operand on `wdata`: decode, then perform; a reserved word is `ILLEGAL` (30_encoding.md
R85, R95). -/
def performCommand (word : CommandWord) (wdata : Word) (s : State) : Result :=
  match decode word with
  | .ok i => exec i { s with wdata := wdata }
  | .error _ => .next ({ s with wdata := wdata }.answerIllegal)

/-- A load of the hart, as the timer command it stands for (20_memory.md R61). -/
def performLoad (addr : Word) (width : AccessWidth) (s : State) : Result :=
  match mappedSelector s.config (portWord s addr) width with
  | .ok sel => exec (.tmrRead sel) s
  | .error r => .refused r

/-- A store of the hart, as the timer command it stands for (20_memory.md R61). -/
def performStore (addr : Word) (width : AccessWidth) (value : Word) (s : State) : Result :=
  match mappedSelector s.config (portWord s addr) width with
  | .ok sel => exec (.tmrWrite sel) { s with wdata := value }
  | .error r => .refused r

/-- The step of one input (00_scope.md R12). -/
def perform (i : Input) (s : State) : Result :=
  match i with
  | .command word wdata => performCommand word wdata s
  | .load addr width => performLoad addr width s
  | .store addr width value => performStore addr width value s
  | .exc code pc tval => excEvent code pc tval s
  | .irqPoll pc => irqPollEvent pc s
  | .tick => .next s.tick
  | .pin msip meip => .next (s.drivePins msip meip)
  | .reset => .next s.resetEvent

/-- One step of the block: the fault flag is sticky (10_state.md R41); otherwise the next input is performed; with no
input that may move, nothing happens (log 7). -/
def performNext (s : State) : Result :=
  match s.faultFlag with
  | some f => .fault f
  | none =>
    match nextInput s.waiting s.inputs with
    | some (i, rest) => perform i { s with inputs := rest }
    | none => .next s

/-- The hart drives a command word as the very next input: the word at the head of the inputs, the operand port as it
stands, and the block not waiting, since a waiting hart issues nothing (10_state.md R40; log 9). -/
def presentCommand (s : State) (word : CommandWord) : State :=
  { s with inputs := .command word s.wdata :: s.inputs, waiting := false }

end Sys2Proof.Machine
end

