-- ==== Sys2Proof/Machine/Step.lean ====
section
/-! DEFINITION. The step of the machine, and how a command comes to be its next one. -/

namespace Sys2Proof.Machine

/-- One step of the block (00_scope.md R12). -/
def step (s : State) : Host.Outcome State Fault Refusal := performNext s

/-- The command whose bits are `w` is the next input of the step (log 9). -/
def State.withFetchWord (s : State) (nbits w : Nat) : State := presentCommand s (BitVec.ofNat 32 (w % 2 ^ nbits))

end Sys2Proof.Machine
end

