-- ==== Sys2Proof/Machine/Driver.lean ====
section
/-! DEFINITION. The document's own operation names and the commands they stand for (30_encoding.md R91), and the assembler
text of a command (R90). Software's side of the command port: no step of the block uses this file. -/

namespace Sys2Proof.Machine

/-- The operations of 30_encoding.md R91 that are one command each. -/
inductive DriverCall where
  /-- `read() -> word` of a register. -/
  | read (r : Csr)
  /-- `write(word)`. -/
  | write (r : Csr) (value : Word)
  /-- `set_bits(mask)`. -/
  | setBits (r : Csr) (mask : Word)
  /-- `clear_bits(mask)`. -/
  | clearBits (r : Csr) (mask : Word)
  /-- `get_raw_time() -> u64`. -/
  | getRawTime
  /-- `set_compare(absolute_tick: u64)`. -/
  | setCompare (tick : Word)
  /-- The helper that converts a duration to a tick delta. -/
  | convert (duration : Word)
  /-- The canonical rearm pattern. -/
  | rearm
  /-- Install direct mode with a handler address. -/
  | installDirect (handler : Word)
  /-- Install vectored mode with a table base. -/
  | installVectored (table : Word)
  | enableAll
  | disableAll
  | enableTimer
  | disableTimer
  /-- Advance the return address past an environment call. -/
  | advancePastEcall
deriving DecidableEq, Repr

/-- `set_bits(mask)`: the immediate form where the mask is below 32 (30_encoding.md R91). -/
def expandSet (c : Config) (r : Csr) (mask : Word) : Instr × Word :=
  if mask.toNat < 32 then (.csrSetI (r.selector c) (mask.setWidth 5), 0) else (.csrSet (r.selector c), mask)

/-- `clear_bits(mask)`: the immediate form where the mask is below 32 (30_encoding.md R91). -/
def expandClear (c : Config) (r : Csr) (mask : Word) : Instr × Word :=
  if mask.toNat < 32 then (.csrClearI (r.selector c) (mask.setWidth 5), 0) else (.csrClear (r.selector c), mask)

/-- The command and the operand on `wdata` of an operation (30_encoding.md R91). The operand is 0 where the command reads
none. -/
def expandCall (c : Config) (call : DriverCall) : Instr × Word :=
  match call with
  | .read r => (.csrRead (r.selector c), 0)
  | .write r value => (.csrWrite (r.selector c), value)
  | .setBits r mask => expandSet c r mask
  | .clearBits r mask => expandClear c r mask
  | .getRawTime => (.tmrRead Config.tmrTime, 0)
  | .setCompare tick => (.tmrWrite Config.tmrTimecmp, tick)
  | .convert duration => (.tmrConv, duration)
  | .rearm => (.tmrRearm, 0)
  | .installDirect handler => (.csrWrite c.csrTvec, handler)
  | .installVectored table => (.csrWrite c.csrTvec, table ||| 1)
  | .enableAll => expandSet c .mstatus (bitAt true c.statusMie)
  | .disableAll => expandClear c .mstatus (bitAt true c.statusMie)
  | .enableTimer => expandSet c .mie (bitAt true c.irqMti)
  | .disableTimer => expandClear c .mie (bitAt true c.irqMti)
  | .advancePastEcall => (.trapSvc, 0)

/-- The operation as an input of the block. -/
def callInput (c : Config) (call : DriverCall) : Input := .command (encode (expandCall c call).1) (expandCall c call).2

/-- What a hart presents for an instruction it cannot execute, a command answered `ILLEGAL` among them (30_encoding.md
R86). -/
def illegalInstructionInput (c : Config) (pc tval : Word) : Input := .exc (BitVec.ofNat 64 c.excIllegal) pc tval

/-- What a hart presents for an environment call (30_encoding.md R92). -/
def environmentCallInput (c : Config) (pc : Word) : Input := .exc (BitVec.ofNat 64 c.excEcallM) pc 0

/-- The short name of a CSR in the assembler text (30_encoding.md R90). -/
def csrText : Csr → String
  | .mstatus => "mstatus"
  | .mie => "mie"
  | .mtvec => "mtvec"
  | .mepc => "mepc"
  | .mcause => "mcause"
  | .mtval => "mtval"
  | .mip => "mip"

/-- The name of a timer register in the assembler text (30_encoding.md R90). -/
def timerText : TimerReg → String
  | .time => "time"
  | .timecmp => "timecmp"
  | .period => "period"
  | .last => "last"
  | .timeLo => "time_lo"
  | .timeHi => "time_hi"
  | .timecmpLo => "timecmp_lo"
  | .timecmpHi => "timecmp_hi"

/-- The name of a CSR selector in the assembler text; none where it names no register (30_encoding.md R90). -/
def csrSelectorText (c : Config) (sel : Selector) : Option String := (Csr.ofSelector c sel).map csrText

/-- The name of a timer selector in the assembler text; none where it names no register (30_encoding.md R90). -/
def timerSelectorText (sel : Selector) : Option String := (TimerReg.ofSelector sel).map timerText

/-- A number in decimal. -/
def numberText (v : Nat) : String := toString v

/-- The assembler line of a command with its operand; none where a selector names no register (30_encoding.md R90). -/
def instrText (c : Config) (i : Instr) (wdata : Word) : Option String :=
  match i with
  | .csrRead sel => (csrSelectorText c sel).map fun r => "CSR_READ " ++ r
  | .csrWrite sel => (csrSelectorText c sel).map fun r => "CSR_WRITE " ++ r ++ ", " ++ numberText wdata.toNat
  | .csrSet sel => (csrSelectorText c sel).map fun r => "CSR_SET " ++ r ++ ", " ++ numberText wdata.toNat
  | .csrClear sel => (csrSelectorText c sel).map fun r => "CSR_CLEAR " ++ r ++ ", " ++ numberText wdata.toNat
  | .csrWriteI sel imm => (csrSelectorText c sel).map fun r => "CSR_WRITEI " ++ r ++ ", " ++ numberText imm.toNat
  | .csrSetI sel imm => (csrSelectorText c sel).map fun r => "CSR_SETI " ++ r ++ ", " ++ numberText imm.toNat
  | .csrClearI sel imm => (csrSelectorText c sel).map fun r => "CSR_CLEARI " ++ r ++ ", " ++ numberText imm.toNat
  | .tmrRead sel => (timerSelectorText sel).map fun r => "TMR_READ " ++ r
  | .tmrWrite sel => (timerSelectorText sel).map fun r => "TMR_WRITE " ++ r ++ ", " ++ numberText wdata.toNat
  | .tmrRearm => some "TMR_REARM"
  | .tmrConv => some ("TMR_CONV " ++ numberText wdata.toNat)
  | .trapRet => some "TRAP_RET"
  | .trapSvc => some "TRAP_SVC"
  | .wait => some "WAIT"

/-- The line of an input: a command's assembler line, or an event's (30_encoding.md R90). A load or store of the hart has no
line of its own: it is written as the timer command it stands for. -/
def inputText (c : Config) (input : Input) : Option String :=
  match input with
  | .command word wdata =>
    match decode word with
    | .ok i => instrText c i wdata
    | .error _ => none
  | .load _ _ => none
  | .store _ _ _ => none
  | .exc code pc tval =>
    some ("@EXC " ++ numberText code.toNat ++ ", " ++ numberText pc.toNat ++ ", " ++ numberText tval.toNat)
  | .irqPoll pc => some ("@IRQ_POLL " ++ numberText pc.toNat)
  | .tick => some "@TICK 1"
  | .pin msip meip => some ("@PIN " ++ numberText msip.toNat ++ ", " ++ numberText meip.toNat)
  | .reset => some "@RESET"

end Sys2Proof.Machine
end

