-- ==== Sys2Proof/WellFormed.lean ====
section
/-! DEFINITION. When a command names a register it may act on: step (5) of 30_encoding.md R95. The widths of the fields
are in their types, so every term has an encoding; a term refused here is a command the block answers `ILLEGAL` (R86). -/

namespace Sys2Proof

/-- The selector is one of the seven CSR numbers (30_encoding.md R86). -/
def namesCsr (c : Config) (sel : Selector) : Bool := (Csr.ofSelector c sel).isSome

/-- The selector is one of the eight timer selectors (30_encoding.md R86). -/
def namesTimer (sel : Selector) : Bool := (TimerReg.ofSelector sel).isSome

/-- The selector is a timer selector and not the counter or a half of it (30_encoding.md R86). -/
def namesWritableTimer (sel : Selector) : Bool :=
  match TimerReg.ofSelector sel with
  | some r => r.writable
  | none => false

/-- Step (5) of 30_encoding.md R95. -/
def Instr.wellFormed (c : Config) (i : Instr) : Bool :=
  match i with
  | .csrRead sel => namesCsr c sel
  | .csrWrite sel => namesCsr c sel
  | .csrSet sel => namesCsr c sel
  | .csrClear sel => namesCsr c sel
  | .csrWriteI sel _ => namesCsr c sel
  | .csrSetI sel _ => namesCsr c sel
  | .csrClearI sel _ => namesCsr c sel
  | .tmrRead sel => namesTimer sel
  | .tmrWrite sel => namesWritableTimer sel
  | .tmrRearm => true
  | .tmrConv => true
  | .trapRet => true
  | .trapSvc => true
  | .wait => true

end Sys2Proof
end

