-- ==== Sys2Proof/Safety.lean ====
section
/-! DEFINITION. What counts as a legal configuration, a legal state and a safe run, in the terms the statements use. -/

namespace Sys2Proof.Machine

/-- The value fits in XLEN bits (10_state.md R24). -/
def fitsXlen (x : XLen) (v : Word) : Prop := v.toNat < 2 ^ xlenBits x

/-- What the spec requires of the parameters (00_scope.md R8): the seven selectors differ, and so do the three sources'
numbers and the bits of mstatus, all of them bits of a machine word (10_state.md R25 to R27); each of the three sources
has a place in `IRQ_PRIO` and in the table; the granule of mtvec, the pc increment and the table stride keep bits 1:0 of
a pc at 0 (R22); the two rates are not 0 (41_timer_ops.md R124). -/
structure LegalConfig (c : Config) : Prop where
  selectors : ∀ r q : Csr, r.selector c = q.selector c → r = q
  sources : ∀ k j : IrqSource, irqNumber c k = irqNumber c j → k = j
  sourceBit : ∀ k : IrqSource, irqNumber c k < xlenBits c.xlen
  statusBits : [c.statusMie, c.statusMpie, c.statusMpp, c.statusMpp + 1].Nodup
  statusBit : ∀ n ∈ [c.statusMie, c.statusMpie, c.statusMpp + 1], n < xlenBits c.xlen
  prio : ∀ k : IrqSource, k ∈ c.irqPrio
  slots : ∀ k : IrqSource, irqNumber c k < c.vecSlots
  granule : c.directAlign ≠ 0 ∧ c.directAlign % 4 = 0
  ilen : c.ilenBytes % 4 = 0
  stride : c.vecStride % 4 = 0
  hz : c.timerHz ≠ 0
  unit : c.unitPerSec ≠ 0

/-- The registers, fields and causes have the numbers the spec decides (00_scope.md R8): the statements whose rules are
written with those numbers assume it (log 17). -/
abbrev Decided (c : Config) : Prop := c.toNumbers = {}

/-- What every reachable state of a legal configuration satisfies: the registers have XLEN bits (10_state.md R24), the
saved return address and every driven pc are multiples of 4 (R22, R30), and the reserved bit of an installed mtvec is 0
(R28). -/
structure State.Legal (s : State) : Prop where
  config : LegalConfig s.config
  mtvecFits : fitsXlen s.config.xlen s.mtvec
  mepcFits : fitsXlen s.config.xlen s.mepc
  mcauseFits : fitsXlen s.config.xlen s.mcause
  mtvalFits : fitsXlen s.config.xlen s.mtval
  mepcAligned : s.mepc.toNat % 4 = 0
  tvecReserved : s.tvecInstalled = true → s.mtvec.getLsbD 1 = false
  nextPcFits : ∀ p, s.outputs.nextPc = some p → fitsXlen s.config.xlen p
  nextPcAligned : ∀ p, s.outputs.nextPc = some p → p.toNat % 4 = 0

/-- The state a model records after a step (00_scope.md R13): the next state; after a fault, the state with the flag set
and every other piece of the block's state a free value; after a refusal, the state before it. -/
def State.recordStep (s : State) : State :=
  match step s with
  | .next t => t
  | .fault f => s.raiseFlag f
  | .refused _ => s

/-- `n` steps of the machine, stopping at the first fault or refusal: `Host.Core.run` of this core, on State itself. -/
def runSteps : Nat → State → Result
  | 0, s => .next s
  | n + 1, s =>
    match step s with
    | .next t => runSteps n t
    | .fault f => .fault f
    | .refused r => .refused r

/-- A run of `n` steps meets no fault (93_implementation_defined.md U1, U2). -/
def State.FaultFree (s : State) (n : Nat) : Prop := ∀ f, runSteps n s ≠ .fault f

end Sys2Proof.Machine
end

