-- ==== Sys2Proof/Certificates/Slice0/Obligations.lean ====
section
/-! DEFINITION. The statements about the block. The first part writes the values of the rules as arithmetic on natural
numbers, apart from the model's own functions; the second part states the obligations with it. -/

open Sys2Proof Sys2Proof.Machine

namespace Sys2Proof.Spec

/-! ## The rules as arithmetic -/

/-- `2^XLEN` for the state's XLEN. -/
def wordSize (s : State) : Nat := 2 ^ xlenBits s.config.xlen

/-- An XLEN-bit value as a machine word. -/
def word (n : Nat) : Word := BitVec.ofNat 64 n

/-- The decided selector numbers (00_scope.md R8, 10_state.md R25). -/
def csrNumber : Csr → Selector
  | .mstatus => 0x300#12
  | .mie => 0x304#12
  | .mtvec => 0x305#12
  | .mepc => 0x341#12
  | .mcause => 0x342#12
  | .mtval => 0x343#12
  | .mip => 0x344#12

/-- The selector numbers of 30_encoding.md R82. -/
def timerNumber : TimerReg → Selector
  | .time => 0x000#12
  | .timecmp => 0x001#12
  | .period => 0x002#12
  | .last => 0x003#12
  | .timeLo => 0x008#12
  | .timeHi => 0x009#12
  | .timecmpLo => 0x00A#12
  | .timecmpHi => 0x00B#12

/-- `MTIP` (41_timer_ops.md R126). -/
def mtip (s : State) : Nat := if s.mtimecmp.toNat ≤ s.mtime.toNat then 1 else 0

/-- The value read from each CSR, with the decided numbers of the fields (40_csr_ops.md R101). -/
def csrValue (s : State) : Csr → Nat
  | .mstatus => 0x1800 + 2 ^ 7 * s.mstatus.mpie.toNat + 2 ^ 3 * s.mstatus.mie.toNat
  | .mie => 2 ^ 11 * s.mie.meie.toNat + 2 ^ 7 * s.mie.mtie.toNat + 2 ^ 3 * s.mie.msie.toNat
  | .mtvec => s.mtvec.toNat % wordSize s
  | .mepc => s.mepc.toNat % wordSize s / 4 * 4
  | .mcause => s.mcause.toNat % wordSize s
  | .mtval => s.mtval.toNat % wordSize s
  | .mip => 2 ^ 11 * s.meipIn.toNat + 2 ^ 7 * mtip s + 2 ^ 3 * s.msipIn.toNat

/-- The state after `csr_store` (40_csr_ops.md R102) of `new`; `full` marks `CSR_WRITE` and `CSR_WRITEI`. -/
def stored (full : Bool) (r : Csr) (new : Nat) (s : State) : State :=
  match r with
  | .mstatus => { s with mstatus := { mie := new.testBit 3, mpie := new.testBit 7 } }
  | .mie => { s with mie := { msie := new.testBit 3, mtie := new.testBit 7, meie := new.testBit 11 } }
  | .mtvec =>
    if s.tvecInstalled = false ∧ full = false then s
    else { s with mtvec := word (new % wordSize s), tvecInstalled := true }
  | .mepc => { s with mepc := word (new % wordSize s / 4 * 4) }
  | .mcause => { s with mcause := word (new % wordSize s) }
  | .mtval => { s with mtval := word (new % wordSize s) }
  | .mip => s

/-- Outcome `OK` with a value on `rdata`; the trap port is not driven, because the rules of these commands drive nothing
on it (log 10). -/
def okOutputs (rdata : Nat) : Outputs := { resp := some .ok, rdata := some (word rdata) }

/-- Outcome `OK` of a step that drives nothing else (00_scope.md R13). -/
def doneOutputs : Outputs := { resp := some .ok }

/-- Outcome `ILLEGAL` (00_scope.md R13). -/
def illegalOutputs : Outputs := { resp := some .illegal, rdata := some 0 }

/-- The one refusal of a CSR command (40_csr_ops.md R102): a store to mtvec of a value with bit 1 set. -/
abbrev refusesTvec (full : Bool) (r : Csr) (new : Nat) (s : State) : Prop :=
  r = .mtvec ∧ (full = true ∨ s.tvecInstalled = true) ∧ new.testBit 1 = true

/-- What 40_csr_ops.md R100 to R109 say of a writing command whose new value is `newOf s old`, with the decided numbers:
its word is `op | sel`; it answers the old value and stores the new one, in every register, where it is not the refused
store; it is `ILLEGAL` on every other selector. -/
def UpdateCompletes (full : Bool) (op : CommandWord) (i : Selector → Instr) (newOf : State → Nat → Nat) : Prop :=
  (∀ sel, encode (i sel) = op ||| sel.setWidth 32) ∧
  ∀ s, Decided s.config →
    (∀ r, ¬ refusesTvec full r (newOf s (csrValue s r)) s →
      exec (i (csrNumber r)) s =
        .next { stored full r (newOf s (csrValue s r)) s with outputs := okOutputs (csrValue s r) }) ∧
    (∀ sel, (∀ r, sel ≠ csrNumber r) → exec (i sel) s = .next { s with outputs := illegalOutputs })

/-- A writing command refuses the store that 40_csr_ops.md R102 refuses. -/
def UpdateRefuses (full : Bool) (i : Selector → Instr) (newOf : State → Nat → Nat) : Prop :=
  ∀ s r, Decided s.config → refusesTvec full r (newOf s (csrValue s r)) s →
    exec (i (csrNumber r)) s = .refused .reservedTvecMode

/-- `wdata[XLEN-1:0]`. -/
def operand (s : State) : Nat := s.wdata.toNat % wordSize s

/-- `a &~ b` at XLEN bits (00_scope.md R9): the bits of `a` that `b` does not have. -/
def andNot (a b : Nat) : Nat := a ^^^ (a &&& b)

/-- What a writing CSR command stores over the old value, and whether it is a full write (40_csr_ops.md R104 to R109);
none for a command that writes no CSR. -/
def newValue (s : State) (old : Nat) : Instr → Option (Bool × Nat)
  | .csrWrite _ => some (true, operand s)
  | .csrSet _ => some (false, old ||| operand s)
  | .csrClear _ => some (false, andNot old (operand s))
  | .csrWriteI _ imm => some (true, imm.toNat)
  | .csrSetI _ imm => some (false, old ||| imm.toNat)
  | .csrClearI _ imm => some (false, andNot old imm.toNat)
  | .csrRead _ | .tmrRead _ | .tmrWrite _ | .tmrRearm | .tmrConv | .trapRet | .trapSvc | .wait => none

/-- The reserved bit of an installed mtvec is 0 (10_state.md R28), a part of `State.Legal` that every step keeps. -/
abbrev ReservedBitClear (s : State) : Prop := s.tvecInstalled = true → s.mtvec.getLsbD 1 = false

/-- The value read by `TMR_READ` (41_timer_ops.md R120). -/
def timerValue (s : State) : TimerReg → Nat
  | .time => s.mtime.toNat
  | .timecmp => s.mtimecmp.toNat
  | .period => s.period.toNat
  | .last => s.lastTime.toNat
  | .timeLo => s.mtime.toNat % 2 ^ 32
  | .timeHi => s.mtime.toNat / 2 ^ 32
  | .timecmpLo => s.mtimecmp.toNat % 2 ^ 32
  | .timecmpHi => s.mtimecmp.toNat / 2 ^ 32

/-- `pend_en` (10_state.md R42). -/
def pendEn (s : State) : Nat := csrValue s .mip &&& csrValue s .mie

/-- `wake` (10_state.md R42). -/
abbrev Wake (s : State) : Prop :=
  if s.config.wakeIgnoresGlobal then pendEn s ≠ 0 else s.mstatus.mie = true ∧ pendEn s ≠ 0

/-- The decided cause code of a source (60_exceptions.md R162). -/
def causeNumber : IrqSource → Nat
  | .software => 3
  | .timer => 7
  | .external => 11

/-- `base` (10_state.md R28, R42), the multiple of `DIRECT_ALIGN` at or below the value of mtvec. -/
def base (s : State) : Nat := s.mtvec.toNat % wordSize s / s.config.directAlign * s.config.directAlign

/-- The mode selector bit (10_state.md R28). -/
abbrev vectored (s : State) : Prop := s.mtvec.toNat % 2 = 1

/-- The top bit of a machine word (00_scope.md R9). -/
def top (s : State) : Nat := wordSize s / 2

/-- The address a trap enters at (42_trap_dispatch.md R143), where steps 1 to 3 of 60_exceptions.md R169 pass. -/
def target (isInterrupt : Bool) (code : Nat) (s : State) : Nat :=
  if vectored s ∧ isInterrupt = true then (base s + s.config.vecStride * code) % wordSize s else base s

/-- `take_trap` (60_exceptions.md R169). -/
def takeTrap (isInterrupt : Bool) (code pc tval : Nat) (s : State) : Result :=
  if s.tvecInstalled = false then .fault .trapWhileUninstalled
  else if vectored s ∧ base s % s.config.vecAlign ≠ 0 then .fault .misalignedVectorBase
  else if vectored s ∧ isInterrupt = true ∧ s.config.vecSlots ≤ code then .refused .vectorSlotOutOfRange
  else
    .next
      { s with
        mepc := word (pc / 4 * 4)
        mcause := word (top s * isInterrupt.toNat + code)
        mtval := word tval
        mstatus := { mie := false, mpie := s.mstatus.mie }
        outputs :=
          { resp := some .ok, trapTaken := some true, nextPc := some (word (target isInterrupt code s)) } }

/-- A trap entry is not a fault of 60_exceptions.md R169: installed, and in vectored mode aligned. -/
abbrev Enterable (s : State) : Prop :=
  s.tvecInstalled = true ∧ (vectored s → base s % s.config.vecAlign = 0)

/-- The variant code of the cause register (42_trap_dispatch.md R142, 30_encoding.md R94). -/
def variantNumber (s : State) : Nat :=
  if csrValue s .mcause < top s then 4
  else if csrValue s .mcause = top s + 7 then 1
  else if csrValue s .mcause = top s + 3 then 2
  else if csrValue s .mcause = top s + 11 then 3
  else 0

/-- The block takes its next input from the head of the list: no fault, and the hart is not held by a wait. -/
abbrev Ready (s : State) : Prop := s.faultFlag = none ∧ s.waiting = false

/-- The seven CSR commands on one selector. -/
def csrCommands (sel : Selector) (imm : Imm5) : List Instr :=
  [.csrRead sel, .csrWrite sel, .csrSet sel, .csrClear sel, .csrWriteI sel imm, .csrSetI sel imm, .csrClearI sel imm]

/-- A writable bit of a CSR (10_state.md R26 to R33); of mtvec only while it is installed, and never its reserved bit. -/
def writableBit (s : State) (r : Csr) (k : Nat) : Prop :=
  match r with
  | .mstatus => k = 3 ∨ k = 7
  | .mie => k = 3 ∨ k = 7 ∨ k = 11
  | .mtvec => s.tvecInstalled = true ∧ k ≠ 1 ∧ k < xlenBits s.config.xlen
  | .mepc => 2 ≤ k ∧ k < xlenBits s.config.xlen
  | .mcause => k < xlenBits s.config.xlen
  | .mtval => k < xlenBits s.config.xlen
  | .mip => False

/-- A bit of a CSR that no write changes (10_state.md R26, R27, R30, R33), with the decided numbers. -/
def hardwiredBit (r : Csr) (k : Nat) : Prop :=
  match r with
  | .mstatus => k ≠ 3 ∧ k ≠ 7
  | .mie => k ≠ 3 ∧ k ≠ 7 ∧ k ≠ 11
  | .mepc => k < 2
  | .mip => True
  | .mtvec | .mcause | .mtval => False

/-- A word is reserved (30_encoding.md R85). -/
abbrev Reserved (w : Nat) : Prop :=
  w / 2 ^ 28 % 16 = 4 ∨ w / 2 ^ 28 % 16 = 15 ∨ w / 2 ^ 17 % 2 ^ 11 ≠ 0 ∨
  (w / 2 ^ 12 % 2 ^ 5 ≠ 0 ∧ w / 2 ^ 28 % 16 ≠ 5 ∧ w / 2 ^ 28 % 16 ≠ 6 ∧ w / 2 ^ 28 % 16 ≠ 7) ∨
  (w % 2 ^ 12 ≠ 0 ∧ 10 ≤ w / 2 ^ 28 % 16 ∧ w / 2 ^ 28 % 16 ≤ 14)

/-- The rows of the opcode table: mask, match and the command of a word (30_encoding.md R96). -/
def rows : List (Nat × Nat × (Selector → Imm5 → Instr)) :=
  [(0xFFFFF000, 0x00000000, fun s _ => .csrRead s), (0xFFFFF000, 0x10000000, fun s _ => .csrWrite s),
   (0xFFFFF000, 0x20000000, fun s _ => .csrSet s), (0xFFFFF000, 0x30000000, fun s _ => .csrClear s),
   (0xFFFE0000, 0x50000000, fun s i => .csrWriteI s i), (0xFFFE0000, 0x60000000, fun s i => .csrSetI s i),
   (0xFFFE0000, 0x70000000, fun s i => .csrClearI s i), (0xFFFFF000, 0x80000000, fun s _ => .tmrRead s),
   (0xFFFFF000, 0x90000000, fun s _ => .tmrWrite s), (0xFFFFFFFF, 0xA0000000, fun _ _ => .tmrRearm),
   (0xFFFFFFFF, 0xB0000000, fun _ _ => .tmrConv), (0xFFFFFFFF, 0xC0000000, fun _ _ => .trapRet),
   (0xFFFFFFFF, 0xD0000000, fun _ _ => .trapSvc), (0xFFFFFFFF, 0xE0000000, fun _ _ => .wait)]

/-- The timer accesses a platform maps (20_memory.md R61): base address, offset, width, selector. -/
def mappedAccesses (c : Config) : List (Nat × Nat × AccessWidth × Selector) :=
  [(c.mtimeAddr.toNat, 0, .bytes8, 0x000#12), (c.mtimeAddr.toNat, 0, .bytes4, 0x008#12),
   (c.mtimeAddr.toNat, 4, .bytes4, 0x009#12), (c.mtimecmpAddr.toNat, 0, .bytes8, 0x001#12),
   (c.mtimecmpAddr.toNat, 0, .bytes4, 0x00A#12), (c.mtimecmpAddr.toNat, 4, .bytes4, 0x00B#12)]

/-- The two timer windows lie apart, each aligned and inside the hart's address space. -/
abbrev WindowsApart (s : State) : Prop :=
  s.config.mtimeAddr.toNat % 8 = 0 ∧ s.config.mtimecmpAddr.toNat % 8 = 0 ∧
  s.config.mtimeAddr.toNat ≠ s.config.mtimecmpAddr.toNat ∧
  s.config.mtimeAddr.toNat < wordSize s ∧ s.config.mtimecmpAddr.toNat < wordSize s

/-- The set or clear of the interrupt-enable register an input is, in either form, with its mask: true is a set. -/
def enableOp : Input → Option (Bool × Nat)
  | .command w d =>
    match decode w with
    | .ok (.csrSet sel) => if sel = csrNumber .mie then some (true, d.toNat) else none
    | .ok (.csrClear sel) => if sel = csrNumber .mie then some (false, d.toNat) else none
    | .ok (.csrSetI sel imm) => if sel = csrNumber .mie then some (true, imm.toNat) else none
    | .ok (.csrClearI sel imm) => if sel = csrNumber .mie then some (false, imm.toNat) else none
    | _ => none
  | _ => none

/-- Bit `k` after an input, by the set or clear that has it in its mask. -/
def bitAfter (k : Nat) (b : Bool) (i : Input) : Bool :=
  match enableOp i with
  | some (set, mask) => if mask.testBit k then set else b
  | none => b

/-- An input with a next state where the dispatcher can be entered, other than a command or RESET. -/
abbrev EventOf (i : Input) : Prop :=
  i = .tick ∨ (∃ a b, i = .pin a b) ∨ (∃ pc : Word, i = .irqPoll pc ∧ pc.toNat % 4 = 0) ∨
  (∃ code pc tval : Word, i = .exc code pc tval ∧ pc.toNat % 4 = 0)

/-- The halt of 42_trap_dispatch.md R147: waiting, every per-source enable 0, and no RESET to come. -/
def Halted (s : State) : Prop :=
  s.faultFlag = none ∧ s.waiting = true ∧ csrValue s .mie = 0 ∧ Input.reset ∉ s.inputs

/-- The global enable is 0, no trap is being taken, and only polls at instruction addresses, ticks and level changes are
to come. -/
def Unpreempted (s : State) : Prop :=
  s.faultFlag = none ∧ s.mstatus.mie = false ∧ s.outputs.trapTaken ≠ some true ∧
  ∀ i ∈ s.inputs, i = .tick ∨ (∃ a b, i = .pin a b) ∨ (∃ pc : Word, i = .irqPoll pc ∧ pc.toNat % 4 = 0)

/-- The command words of `TRAP_RET`, `TRAP_SVC` and `TMR_REARM` (30_encoding.md R81). -/
def trapRetWord : CommandWord := 0xC0000000#32
def trapSvcWord : CommandWord := 0xD0000000#32
def rearmWord : CommandWord := 0xA0000000#32

end Sys2Proof.Spec

open Sys2Proof.Spec

/-! ## Encoding -/

/-- 30_encoding.md R80, R81, R95: every command's word decodes to the command, with every selector and immediate. -/
def Obligations.DecodeOfEncodeIsTheCommand : Prop :=
  ∀ i : Instr, decode (encode i) = .ok i

/-- 30_encoding.md R80, R85: a word that decodes is the word of the command it decodes to, so no bit of a word is
dropped. -/
def Obligations.EncodeOfDecodeIsTheWord : Prop :=
  ∀ (w : CommandWord) (i : Instr), decode w = .ok i → encode i = w

/-- 30_encoding.md R85: a reserved word has outcome ILLEGAL and changes no state; every other word is decoded. -/
def Obligations.ReservedWordsAreIllegal : Prop :=
  (∀ w : CommandWord, ¬ Reserved w.toNat → ∃ i, decode w = .ok i) ∧
  (∀ (s : State) (w : CommandWord) (d : Word) (rest : List Input),
    Ready s → s.inputs = .command w d :: rest → Reserved w.toNat →
    step s = .next { s with inputs := rest, wdata := d, outputs := illegalOutputs })

/-- 30_encoding.md R96: a word that matches a row of the opcode table decodes to the row's command, with the selector and
the immediate at their places; there are 14 rows. -/
def Obligations.MatchedRowDecodesToItsCommand : Prop :=
  rows.length = 14 ∧
  ∀ row ∈ rows, ∀ w : CommandWord, w.toNat &&& row.1 = row.2.1 →
    decode w = .ok (row.2.2 (BitVec.ofNat 12 (w.toNat % 2 ^ 12)) (BitVec.ofNat 5 (w.toNat / 2 ^ 12 % 2 ^ 5)))

/-- Words of 95_test_vectors.md section 2.1, one of each family. -/
def Obligations.SampleWordsDecode : Prop :=
  decode 0x00000300#32 = .ok (.csrRead 0x300#12) ∧ decode 0x20000304#32 = .ok (.csrSet 0x304#12) ∧
  decode 0x6001F304#32 = .ok (.csrSetI 0x304#12 31#5) ∧ decode 0x9000000B#32 = .ok (.tmrWrite 0x00B#12) ∧
  decode 0xD0000000#32 = .ok .trapSvc ∧ decode 0x40000300#32 = .error .reservedOp

/-- 00_scope.md R12, 30_encoding.md R95: when the hart's next input is a command word that decodes, the step is the
meaning of that command, with the operand on `wdata` and the input taken off the list. -/
def Obligations.StepRunsTheDecodedCommand : Prop :=
  ∀ (s : State) (w : CommandWord) (d : Word) (rest : List Input) (i : Instr),
    Ready s → s.inputs = .command w d :: rest → decode w = .ok i →
    step s = exec i { s with inputs := rest, wdata := d }

/-! ## The CSR commands -/

/-- 40_csr_ops.md R101, R103: CSR_READ of each register answers its value and changes no state; of another selector it is
ILLEGAL. -/
def Obligations.CsrReadAnswersTheRegister : Prop :=
  (∀ sel, encode (.csrRead sel) = 0x00000000#32 ||| sel.setWidth 32) ∧
  ∀ s, Decided s.config →
    (∀ r, exec (.csrRead (csrNumber r)) s = .next { s with outputs := okOutputs (csrValue s r) }) ∧
    (∀ sel, (∀ r, sel ≠ csrNumber r) → exec (.csrRead sel) s = .next { s with outputs := illegalOutputs })

/-- 00_scope.md R8: the selectors and the bit positions are parameters. With every legal configuration, CSR_READ of a
register's configured selector answers it, and the fields of status, interrupt-enable and interrupt-pending stand at
their configured bits. -/
def Obligations.ReadsFollowTheConfiguredNumbers : Prop :=
  ∀ (s : State) (r : Csr), LegalConfig s.config →
    ∃ v : Word, exec (.csrRead (r.selector s.config)) s = .next { s with outputs := okOutputs v.toNat } ∧
      match r with
      | .mstatus =>
        v.getLsbD s.config.statusMie = s.mstatus.mie ∧ v.getLsbD s.config.statusMpie = s.mstatus.mpie ∧
        v.getLsbD s.config.statusMpp = true ∧ v.getLsbD (s.config.statusMpp + 1) = true
      | .mie => ∀ k, v.getLsbD (irqNumber s.config k) = s.enabled k
      | .mip => ∀ k, v.getLsbD (irqNumber s.config k) = s.pending k
      | .mtvec => v.toNat = s.mtvec.toNat % wordSize s
      | .mepc => v.toNat = s.mepc.toNat % wordSize s / 4 * 4
      | .mcause => v.toNat = s.mcause.toNat % wordSize s
      | .mtval => v.toNat = s.mtval.toNat % wordSize s

/-- 40_csr_ops.md R104. -/
def Obligations.CsrWriteStoresTheOperand : Prop :=
  UpdateCompletes true 0x10000000#32 .csrWrite (fun s _ => operand s) ∧
  UpdateRefuses true .csrWrite (fun s _ => operand s)

/-- 40_csr_ops.md R105. -/
def Obligations.CsrSetStoresTheUnion : Prop :=
  UpdateCompletes false 0x20000000#32 .csrSet (fun s old => old ||| operand s) ∧
  UpdateRefuses false .csrSet (fun s old => old ||| operand s)

/-- 40_csr_ops.md R106; and in a legal state it never refuses, because bit 1 of an installed mtvec is 0. -/
def Obligations.CsrClearStoresTheDifference : Prop :=
  UpdateCompletes false 0x30000000#32 .csrClear (fun s old => andNot old (operand s)) ∧
  (∀ s sel, State.Legal s → ∃ t, exec (.csrClear sel) s = .next t)

/-- 40_csr_ops.md R107. -/
def Obligations.CsrWriteImmediateStoresTheImmediate : Prop :=
  ∀ imm : Imm5,
    UpdateCompletes true (0x50000000#32 ||| imm.setWidth 32 <<< 12) (fun sel => .csrWriteI sel imm)
      (fun _ _ => imm.toNat) ∧
    UpdateRefuses true (fun sel => .csrWriteI sel imm) (fun _ _ => imm.toNat)

/-- 40_csr_ops.md R108. -/
def Obligations.CsrSetImmediateStoresTheUnion : Prop :=
  ∀ imm : Imm5,
    UpdateCompletes false (0x60000000#32 ||| imm.setWidth 32 <<< 12) (fun sel => .csrSetI sel imm)
      (fun _ old => old ||| imm.toNat) ∧
    UpdateRefuses false (fun sel => .csrSetI sel imm) (fun _ old => old ||| imm.toNat)

/-- 40_csr_ops.md R109; and in a legal state it never refuses. -/
def Obligations.CsrClearImmediateStoresTheDifference : Prop :=
  ∀ imm : Imm5,
    UpdateCompletes false (0x70000000#32 ||| imm.setWidth 32 <<< 12) (fun sel => .csrClearI sel imm)
      (fun _ old => andNot old imm.toNat) ∧
    (∀ s sel, State.Legal s → ∃ t, exec (.csrClearI sel imm) s = .next t)

/-- When a clear of mtvec refuses: where the reserved bit of the installed register is already 1 and the mask lacks it.
The model's choice (log 18) for states that no run reaches: the rules say of a clear that it never refuses, because the
bit is always 0. -/
def Obligations.ClearRefusesOnlyAReservedBitAlreadySet : Prop :=
  ∀ (s : State) (imm : Imm5), Decided s.config →
    ∀ p ∈ [(Instr.csrClear (csrNumber .mtvec), operand s), (Instr.csrClearI (csrNumber .mtvec) imm, imm.toNat)],
      (exec p.1 s = .refused .reservedTvecMode ↔
        s.tvecInstalled = true ∧ (csrValue s .mtvec).testBit 1 = true ∧ p.2.testBit 1 = false)

/-- 40_csr_ops.md R111: on the seven registers every CSR command has outcome OK for every operand, save the one refusal of
R102: where the value it would store in mtvec, by a full write or installed, has bit 1 set. A mask bit on a hard-wired or
absent field is ignored. -/
def Obligations.CsrCommandsNeverFail : Prop :=
  ∀ (s : State) (r : Csr) (imm : Imm5), Decided s.config → ReservedBitClear s →
    ∀ i ∈ csrCommands (csrNumber r) imm,
      ((∃ full new, newValue s (csrValue s r) i = some (full, new) ∧ refusesTvec full r new s) →
        exec i s = .refused .reservedTvecMode) ∧
      ((∀ full new, newValue s (csrValue s r) i = some (full, new) → ¬ refusesTvec full r new s) →
        ∃ t, exec i s = .next t ∧ t.outputs.resp = some .ok ∧
          ∀ k, hardwiredBit r k → (csrValue t r).testBit k = (csrValue s r).testBit k)

/-- 40_csr_ops.md R110, first part: a set or clear, where it is not the refused one, leaves every bit outside its mask
as it was and makes every writable bit inside it 1 or 0. -/
def Obligations.SetAndClearTouchOnlyTheirMask : Prop :=
  ∀ (s : State) (r : Csr) (imm : Imm5), Decided s.config →
    (∀ p ∈ [(Instr.csrSet (csrNumber r), operand s), (Instr.csrSetI (csrNumber r) imm, imm.toNat)],
      ¬ refusesTvec false r (csrValue s r ||| p.2) s →
      ∃ t, exec p.1 s = .next t ∧ ∀ k,
        (p.2.testBit k = false → (csrValue t r).testBit k = (csrValue s r).testBit k) ∧
        (p.2.testBit k = true → writableBit s r k → (csrValue t r).testBit k = true)) ∧
    (∀ p ∈ [(Instr.csrClear (csrNumber r), operand s), (Instr.csrClearI (csrNumber r) imm, imm.toNat)],
      ¬ refusesTvec false r (andNot (csrValue s r) p.2) s →
      ∃ t, exec p.1 s = .next t ∧ ∀ k,
        (p.2.testBit k = false → (csrValue t r).testBit k = (csrValue s r).testBit k) ∧
        (p.2.testBit k = true → writableBit s r k → (csrValue t r).testBit k = false))

/-- 40_csr_ops.md R110, the document's property: after any run of sets and clears of the interrupt-enable register, in
either form, with events of every kind but RESET between them, each enable bit is as the last operation that had it in its
mask left it. -/
def Obligations.LastSetOrClearOfABitWins : Prop :=
  ∀ (ops : List Input) (s : State) (rest : List Input), Ready s → Decided s.config → Enterable s →
    11 < s.config.vecSlots → (∀ i ∈ ops, (enableOp i).isSome = true ∨ EventOf i) → s.inputs = ops ++ rest →
    ∃ t, runSteps ops.length s = .next t ∧ t.inputs = rest ∧
      ∀ k, k = 3 ∨ k = 7 ∨ k = 11 →
        (csrValue t .mie).testBit k = ops.foldl (bitAfter k) ((csrValue s .mie).testBit k)

/-- 30_encoding.md R83: an immediate form does what the register form does with the zero-extended immediate on `wdata`. -/
def Obligations.ImmediateFormsEqualRegisterForms : Prop :=
  ∀ (s : State) (sel : Selector) (imm : Imm5), ∀ p ∈ [(Instr.csrWriteI sel imm, Instr.csrWrite sel),
      (Instr.csrSetI sel imm, Instr.csrSet sel), (Instr.csrClearI sel imm, Instr.csrClear sel)],
    (∀ t, exec p.2 { s with wdata := word imm.toNat } = .next t → exec p.1 s = .next { t with wdata := s.wdata }) ∧
    (∀ r, exec p.2 { s with wdata := word imm.toNat } = .refused r → exec p.1 s = .refused r)

/-- 10_state.md R46: with XLEN = 32 a CSR command ignores `wdata[63:32]` and drives `rdata[63:32]` = 0. -/
def Obligations.NarrowMachineIgnoresTheHighHalf : Prop :=
  ∀ (s : State) (w : Word) (sel : Selector) (imm : Imm5), Decided s.config → s.config.xlen = .x32 →
    w.toNat % 2 ^ 32 = s.wdata.toNat % 2 ^ 32 → ∀ i ∈ csrCommands sel imm,
    (∀ t, exec i s = .next t → exec i { s with wdata := w } = .next { t with wdata := w } ∧
      ∃ v, t.outputs.rdata = some v ∧ v.toNat < 2 ^ 32) ∧
    (∀ r, exec i s = .refused r → exec i { s with wdata := w } = .refused r)

/-- 40_csr_ops.md R113: a full write installs the dispatcher in the mode its bit 0 says, at the base it holds, unchecked
for alignment; while uninstalled a set or clear of mtvec stores nothing and does not install; once installed, both
store. -/
def Obligations.OnlyFullWritesInstallTheDispatcher : Prop :=
  (∀ s : State, Decided s.config → (operand s).testBit 1 = false →
    ∃ t, exec (.csrWrite 0x305#12) s = .next t ∧ t.tvecInstalled = true ∧
      csrValue t .mtvec = operand s ∧ base t = operand s / 4 * 4 ∧
      t.mode = if operand s % 2 = 1 then .vectored else .direct) ∧
  (∀ (s : State) (imm : Imm5), Decided s.config → imm.toNat.testBit 1 = false →
    ∃ t, exec (.csrWriteI 0x305#12 imm) s = .next t ∧ t.tvecInstalled = true ∧
      csrValue t .mtvec = imm.toNat ∧ base t = imm.toNat / 4 * 4 ∧
      t.mode = if imm.toNat % 2 = 1 then .vectored else .direct) ∧
  (∀ (s : State) (imm : Imm5), Decided s.config → s.tvecInstalled = false →
    ∀ i ∈ [Instr.csrSet 0x305#12, .csrClear 0x305#12, .csrSetI 0x305#12 imm, .csrClearI 0x305#12 imm],
      exec i s = .next { s with outputs := okOutputs (csrValue s .mtvec) }) ∧
  (∀ (s : State) (imm : Imm5), Decided s.config → s.tvecInstalled = true →
    (((csrValue s .mtvec ||| operand s).testBit 1 = false →
      ∃ t, exec (.csrSet 0x305#12) s = .next t ∧ csrValue t .mtvec = csrValue s .mtvec ||| operand s) ∧
    ((csrValue s .mtvec ||| imm.toNat).testBit 1 = false →
      ∃ t, exec (.csrSetI 0x305#12 imm) s = .next t ∧ csrValue t .mtvec = csrValue s .mtvec ||| imm.toNat) ∧
    ((andNot (csrValue s .mtvec) (operand s)).testBit 1 = false →
      ∃ t, exec (.csrClear 0x305#12) s = .next t ∧ csrValue t .mtvec = andNot (csrValue s .mtvec) (operand s)) ∧
    ((andNot (csrValue s .mtvec) imm.toNat).testBit 1 = false →
      ∃ t, exec (.csrClearI 0x305#12 imm) s = .next t ∧ csrValue t .mtvec = andNot (csrValue s .mtvec) imm.toNat)))

/-- 30_encoding.md R86, R95 step (5): a decoded command answers ILLEGAL exactly when its selector names no register it may
act on, and then changes no state. -/
def Obligations.IllegalExactlyWhenNoRegisterIsNamed : Prop :=
  ∀ (i : Instr) (s : State),
    (i.wellFormed s.config = false → exec i s = .next { s with outputs := illegalOutputs }) ∧
    (∀ t, exec i s = .next t → i.wellFormed s.config = true → t.outputs.resp = some .ok)

/-! ## The timer commands -/

/-- 41_timer_ops.md R121 (and R120): TMR_READ of each of the eight names answers its value and changes no state; of
another selector it is ILLEGAL. -/
def Obligations.TimerReadAnswersTheRegister : Prop :=
  (∀ sel, encode (.tmrRead sel) = 0x80000000#32 ||| sel.setWidth 32) ∧
  (∀ s r, exec (.tmrRead (timerNumber r)) s = .next { s with outputs := okOutputs (timerValue s r) }) ∧
  (∀ s sel, (∀ r, sel ≠ timerNumber r) → exec (.tmrRead sel) s = .next { s with outputs := illegalOutputs })

/-- 41_timer_ops.md R122: TMR_WRITE stores the operand in the register it names, half writes keep the other half, and the
counter and unknown selectors are ILLEGAL. -/
def Obligations.TimerWriteStoresTheOperand : Prop :=
  (∀ sel, encode (.tmrWrite sel) = 0x90000000#32 ||| sel.setWidth 32) ∧
  ∀ s : State,
    exec (.tmrWrite 0x001#12) s = .next { s with mtimecmp := s.wdata, outputs := okOutputs 0 } ∧
    exec (.tmrWrite 0x002#12) s = .next { s with period := s.wdata, outputs := okOutputs 0 } ∧
    exec (.tmrWrite 0x003#12) s = .next { s with lastTime := s.wdata, outputs := okOutputs 0 } ∧
    exec (.tmrWrite 0x00A#12) s = .next { s with
      mtimecmp := word (s.mtimecmp.toNat / 2 ^ 32 * 2 ^ 32 + s.wdata.toNat % 2 ^ 32), outputs := okOutputs 0 } ∧
    exec (.tmrWrite 0x00B#12) s = .next { s with
      mtimecmp := word (s.wdata.toNat % 2 ^ 32 * 2 ^ 32 + s.mtimecmp.toNat % 2 ^ 32), outputs := okOutputs 0 } ∧
    ∀ sel : Selector, sel.toNat ∉ [1, 2, 3, 10, 11] →
      exec (.tmrWrite sel) s = .next { s with outputs := illegalOutputs }

/-- 41_timer_ops.md R123: TMR_REARM stores the present time and the deadline now + period modulo 2^64, and answers the
deadline; the request then falls unless the period is 0 or the sum wraps. -/
def Obligations.RearmAddsThePeriodToNow : Prop :=
  encode .tmrRearm = 0xA0000000#32 ∧
  ∀ s : State, ∃ t, exec .tmrRearm s = .next t ∧
    t = { s with
      lastTime := s.mtime, mtimecmp := word ((s.mtime.toNat + s.period.toNat) % 2 ^ 64),
      outputs := okOutputs ((s.mtime.toNat + s.period.toNat) % 2 ^ 64) } ∧
    (mtip t = 0 ↔ s.period.toNat ≠ 0 ∧ s.mtime.toNat + s.period.toNat < 2 ^ 64)

/-- 41_timer_ops.md R124: TMR_CONV answers the tick count of the duration, rounded down after an unbounded product, and
changes no state. -/
def Obligations.ConversionRoundsDown : Prop :=
  encode .tmrConv = 0xB0000000#32 ∧
  ∀ s : State, exec .tmrConv s =
    .next { s with outputs := okOutputs (s.wdata.toNat * s.config.timerHz / s.config.unitPerSec % 2 ^ 64) }

/-- 41_timer_ops.md R125: TICK adds 1 to the counter modulo 2^64, ends a wait whose wake condition then holds, and changes
nothing else. -/
def Obligations.TickCountsAndMayWake : Prop :=
  ∀ (s : State) (rest : List Input), s.faultFlag = none → s.inputs = .tick :: rest →
    ∃ t, step s = .next t ∧
      t = { s with
        mtime := word ((s.mtime.toNat + 1) % 2 ^ 64), inputs := rest, outputs := doneOutputs, waiting := t.waiting } ∧
      (t.waiting = true ↔ s.waiting = true ∧ ¬ Wake t)

/-- 41_timer_ops.md R126: `mip.MTIP` reads 1 exactly when the counter has reached the compare value, and writing mip
changes nothing (10_state.md R33). -/
def Obligations.TimerRequestIsALevel : Prop :=
  (∀ (s : State) (t : State), Decided s.config → exec (.csrRead 0x344#12) s = .next t →
    ∃ v, t.outputs.rdata = some v ∧ (v.getLsbD 7 = true ↔ s.mtimecmp.toNat ≤ s.mtime.toNat)) ∧
  (∀ (s : State) (imm : Imm5), Decided s.config → ∀ i ∈ csrCommands 0x344#12 imm,
    exec i s = .next { s with outputs := okOutputs (csrValue s .mip) })

/-- 30_encoding.md R91, 41_timer_ops.md R123: TMR_REARM does in one step what TMR_READ time, TMR_WRITE last and TMR_WRITE
timecmp do in three with nothing between them. -/
def Obligations.RearmEqualsItsThreeCommands : Prop :=
  ∀ (s : State), ∃ a b c t,
    exec (.tmrRead 0x000#12) s = .next a ∧ a.outputs.rdata = some s.mtime ∧
    exec (.tmrWrite 0x003#12) { a with wdata := s.mtime } = .next b ∧
    exec (.tmrWrite 0x001#12) { b with wdata := s.mtime + s.period } = .next c ∧
    exec .tmrRearm s = .next t ∧ t = { c with wdata := s.wdata, outputs := t.outputs }

/-- 41_timer_ops.md R125, R126, R129: `n` ticks without a wrap move the counter by `n` and nothing else but `waiting`; the
request is up from the tick that reaches the compare value on, and a waiting hart sleeps until then. -/
def Obligations.TicksReachTheDeadlineExactly : Prop :=
  ∀ (n : Nat) (s : State) (rest : List Input), s.faultFlag = none → s.inputs = List.replicate n .tick ++ rest →
    s.mtime.toNat + n < 2 ^ 64 → 0 < n →
    ∃ t, runSteps n s = .next t ∧
      t = { s with
        mtime := word (s.mtime.toNat + n), inputs := rest, outputs := doneOutputs, waiting := t.waiting } ∧
      (mtip t = 1 ↔ s.mtimecmp.toNat ≤ s.mtime.toNat + n) ∧
      (t.waiting = true ↔ s.waiting = true ∧ ¬ Wake t)

/-! ## The dispatcher commands and the wait -/

/-- 42_trap_dispatch.md R145: TRAP_SVC advances the saved return address past an environment call, changes no register for
any other cause, and answers the variant. -/
def Obligations.ServiceStepsOverOnlyTheEnvironmentCall : Prop :=
  encode .trapSvc = 0xD0000000#32 ∧
  ∀ s : State, Decided s.config → exec .trapSvc s = .next { s with
    mepc :=
      if csrValue s .mcause = 11 then word ((csrValue s .mepc + s.config.ilenBytes) % wordSize s) else s.mepc
    outputs := okOutputs (variantNumber s) }

/-- 42_trap_dispatch.md R146: TRAP_RET restores the global enable from MPIE, sets MPIE, and drives the saved return
address. -/
def Obligations.ReturnRestoresTheEnable : Prop :=
  encode .trapRet = 0xC0000000#32 ∧
  ∀ s : State, exec .trapRet s = .next { s with
    mstatus := { mie := s.mstatus.mpie, mpie := true }
    outputs := { resp := some .ok, rdata := some 0, nextPc := some (word (csrValue s .mepc)) } }

/-- 42_trap_dispatch.md R147, first part: WAIT sets `waiting` unless the wake condition holds, and changes nothing else.
-/
def Obligations.WaitSleepsUnlessWakeHolds : Prop :=
  encode .wait = 0xE0000000#32 ∧
  ∀ s : State, ∃ t, exec .wait s = .next t ∧ t = { s with waiting := t.waiting, outputs := okOutputs 0 } ∧
    (t.waiting = true ↔ s.waiting = true ∨ ¬ Wake s)

/-- 10_state.md R40, as the model reads it (log 8): while the block waits the hart's inputs stay where they are and the
first input of another agent is performed; with none, nothing happens: the model's idle step (log 7). -/
def Obligations.WaitingHoldsTheHart : Prop :=
  (∀ (s : State) (held : List Input) (e : Input) (rest : List Input), s.faultFlag = none → s.waiting = true →
    s.inputs = held ++ e :: rest → (∀ i ∈ held, Input.fromHart i = true) → Input.fromHart e = false →
    step s = perform e { s with inputs := held ++ rest }) ∧
  (∀ s : State, s.faultFlag = none → s.waiting = true → (∀ i ∈ s.inputs, Input.fromHart i = true) → step s = .next s)

/-- 42_trap_dispatch.md R147: with every per-source enable 0 a wait never ends except by RESET. The halt is an invariant of
the step, which changes no register but the counter; so of every run. A step with no input that may move changes nothing:
the model's idle step (log 7). -/
def Obligations.HaltWithoutEnablesIsForever : Prop :=
  (∀ s : State, Halted s → ∃ t, step s = .next t ∧ Halted t ∧ t = { s with
    mtime := t.mtime, msipIn := t.msipIn, meipIn := t.meipIn, inputs := t.inputs, outputs := t.outputs }) ∧
  (∀ (n : Nat) (s : State), Halted s → ∃ t, runSteps n s = .next t ∧ Halted t ∧ t = { s with
    mtime := t.mtime, msipIn := t.msipIn, meipIn := t.meipIn, inputs := t.inputs, outputs := t.outputs })

/-! ## Traps -/

/-- 60_exceptions.md R168: EXC takes the trap whatever the enables hold, for every code, pc and trap value the ports carry
(00_scope.md R10); it refuses a misaligned pc. -/
def Obligations.ExceptionEntersTheTrap : Prop :=
  ∀ (s : State) (code pc tval : Word) (rest : List Input), Ready s → s.inputs = .exc code pc tval :: rest →
    (pc.toNat % 4 ≠ 0 → step s = .refused .misalignedPc) ∧
    (pc.toNat % 4 = 0 → code.toNat < top s → pc.toNat < wordSize s → tval.toNat < wordSize s →
      step s = Spec.takeTrap false code.toNat pc.toNat tval.toNat { s with inputs := rest })

/-- 60_exceptions.md R167: IRQ_POLL takes the first pending and enabled source of IRQ_PRIO when the global enable is 1,
and otherwise drives pc and changes no state, for every pc the port carries (00_scope.md R10); it refuses a misaligned
pc. -/
def Obligations.PollTakesTheFirstDeliverable : Prop :=
  ∀ (s : State) (pc : Word) (rest : List Input), Ready s → Decided s.config → s.inputs = .irqPoll pc :: rest →
    (pc.toNat % 4 ≠ 0 → step s = .refused .misalignedPc) ∧
    (pc.toNat % 4 = 0 → pc.toNat < wordSize s →
      (∀ before k after, s.config.irqPrio = before ++ k :: after → s.mstatus.mie = true →
        (pendEn s).testBit (causeNumber k) = true →
        (∀ j ∈ before, (pendEn s).testBit (causeNumber j) = false) →
        step s = Spec.takeTrap true (causeNumber k) pc.toNat 0 { s with inputs := rest }) ∧
      (s.mstatus.mie = false ∨ pendEn s = 0 →
        step s = .next { s with
          inputs := rest, outputs := { resp := some .ok, trapTaken := some false, nextPc := some pc } }))

/-- 60_exceptions.md R166 with the decided order: external before software before timer, by the cause that is written. -/
def Obligations.ExternalThenSoftwareThenTimer : Prop :=
  ∀ (s : State) (pc : Word) (rest : List Input), Ready s → Decided s.config → s.inputs = .irqPoll pc :: rest →
    pc.toNat % 4 = 0 →
    s.config.irqPrio = [.external, .software, .timer] → Enterable s → 11 < s.config.vecSlots →
    s.mstatus.mie = true → pendEn s ≠ 0 →
    ∃ t, step s = .next t ∧ t.outputs.trapTaken = some true ∧
      t.mcause = word (top s + if (pendEn s).testBit 11 then 11 else if (pendEn s).testBit 3 then 3 else 7)

/-- 42_trap_dispatch.md R143: where a trap goes. Direct mode sends every trap to the base; vectored mode sends
exceptions to slot 0 and an interrupt to the slot of its code, which with the decided stride is base + 12, base + 28 and
base + 44 for the three sources; a code without a slot is refused; an uninstalled dispatcher has no target. -/
def Obligations.RoutingTable : Prop :=
  ∀ (s : State) (code : Word) (isInterrupt : Bool),
    (s.tvecInstalled = false → trapTarget isInterrupt code s = .fault .trapWhileUninstalled) ∧
    (Enterable s →
      (¬ vectored s → trapTarget isInterrupt code s = .next (word (base s))) ∧
      (vectored s → trapTarget false code s = .next (word (base s))) ∧
      (vectored s → code.toNat < s.config.vecSlots → trapTarget true code s =
        .next (word ((base s + s.config.vecStride * code.toNat) % wordSize s))) ∧
      (vectored s → s.config.vecSlots ≤ code.toNat → trapTarget true code s = .refused .vectorSlotOutOfRange) ∧
      (vectored s → Decided s.config → s.config.vecStride = 4 → s.config.vecSlots = 16 →
        trapTarget true (irqCode s.config .software) s = .next (word ((base s + 12) % wordSize s)) ∧
        trapTarget true (irqCode s.config .timer) s = .next (word ((base s + 28) % wordSize s)) ∧
        trapTarget true (irqCode s.config .external) s = .next (word ((base s + 44) % wordSize s))))

/-- 42_trap_dispatch.md R144: at the table's own alignment, adding the slot offset and ORing it in give the same
address. -/
def Obligations.AlignedTableAddsOrOrsAlike : Prop :=
  ∀ (s : State) (code : Word), Enterable s → vectored s → s.config.vecStride = 4 → s.config.vecSlots = 16 →
    s.config.vecAlign = 64 → code.toNat < 16 →
    trapTarget true code s = .next (word (base s ||| 4 * code.toNat))

/-- 60_exceptions.md R160: a trap is entered only at EXC and IRQ_POLL. -/
def Obligations.TrapsOnlyFromExceptionAndPoll : Prop :=
  ∀ (i : Input) (s t : State), perform i s = .next t → t.outputs.trapTaken = some true →
    (∃ code pc tval, i = .exc code pc tval) ∨ (∃ pc, i = .irqPoll pc)

/-- 10_state.md R41, 60_exceptions.md R169: a run faults only at a trap entry that is uninstalled or, in vectored mode,
misaligned. -/
def Obligations.FaultsOnlyAtTrapEntry : Prop :=
  ∀ (s : State) (f : Fault), s.faultFlag = none → step s = .fault f →
    (∃ i rest, nextInput s.waiting s.inputs = some (i, rest) ∧
      ((∃ code pc tval, i = .exc code pc tval) ∨ (∃ pc, i = .irqPoll pc))) ∧
    ((f = .trapWhileUninstalled ∧ s.tvecInstalled = false) ∨
     (f = .misalignedVectorBase ∧ s.tvecInstalled = true ∧ vectored s ∧ base s % s.config.vecAlign ≠ 0))

/-- 60_exceptions.md R170, R171: the return undoes the entry: it resumes at the saved pc with the global enable as it was,
and of the registers only mepc, mcause, mtval and MPIE differ. -/
def Obligations.ReturnUndoesEntry : Prop :=
  ∀ (s t : State) (isInterrupt : Bool) (code pc tval : Word), pc.toNat % 4 = 0 → pc.toNat < wordSize s →
    Machine.takeTrap isInterrupt code pc tval s = .next t →
    ∃ u, exec .trapRet t = .next u ∧ u.outputs.nextPc = some pc ∧
      u = { s with
        mepc := pc, mcause := t.mcause, mtval := tval,
        mstatus := { mie := s.mstatus.mie, mpie := true }, outputs := u.outputs }

/-- 42_trap_dispatch.md R151: EXC(11, p, t) saves p, TRAP_SVC makes it p + 4, TRAP_RET drives p + 4, in both modes. -/
def Obligations.EnvironmentCallResumesAtTheNextInstruction : Prop :=
  ∀ (s : State) (p tval d e : Word) (rest : List Input), Ready s → Decided s.config → Enterable s →
    s.config.ilenBytes = 4 → p.toNat % 4 = 0 → p.toNat < wordSize s →
    s.inputs = .exc 11 p tval :: .command trapSvcWord d :: .command trapRetWord e :: rest →
    ∃ a b c, runSteps 1 s = .next a ∧ a.mepc = p ∧
      runSteps 2 s = .next b ∧ b.mepc = word ((p.toNat + 4) % wordSize s) ∧
      runSteps 3 s = .next c ∧ c.outputs.nextPc = some (word ((p.toNat + 4) % wordSize s)) ∧
      c.mstatus.mie = s.mstatus.mie ∧ c.inputs = rest

/-- 42_trap_dispatch.md R152: an external and a timer interrupt pending together in vectored mode are each taken at their
own slot, the timer only after the return. -/
def Obligations.SimultaneousInterruptsUseTheirOwnSlots : Prop :=
  ∀ (s : State) (p q d : Word) (rest : List Input), Ready s → Decided s.config → Enterable s → vectored s →
    s.config.irqPrio = [.external, .software, .timer] → s.config.vecStride = 4 → 11 < s.config.vecSlots →
    p.toNat % 4 = 0 → p.toNat < wordSize s → q.toNat % 4 = 0 → s.mstatus.mie = true → s.mie.meie = true →
    s.mie.mtie = true → s.meipIn = true → mtip s = 1 →
    s.inputs = .irqPoll p :: .irqPoll q :: .pin false false :: .command trapRetWord d :: .irqPoll p :: rest →
    ∃ a b c e, runSteps 1 s = .next a ∧ a.mcause = word (top s + 11) ∧
        a.outputs.nextPc = some (word ((base s + 44) % wordSize s)) ∧
      runSteps 2 s = .next b ∧ b.outputs.trapTaken = some false ∧
      runSteps 4 s = .next c ∧ c.outputs.nextPc = some p ∧ c.mstatus.mie = true ∧
      runSteps 5 s = .next e ∧ e.mcause = word (top s + 7) ∧
        e.outputs.nextPc = some (word ((base s + 28) % wordSize s)) ∧ e.mepc = p

/-- 60_exceptions.md R176: one deadline gives one timer interrupt: taken at the poll, serviced as variant timer, re-armed,
returned from, and not taken again at the next poll. -/
def Obligations.OneDeadlineGivesOneInterrupt : Prop :=
  ∀ (s : State) (p d1 d2 d3 : Word) (rest : List Input), Ready s → Decided s.config → Enterable s →
    7 < s.config.vecSlots → IrqSource.timer ∈ s.config.irqPrio → p.toNat % 4 = 0 → p.toNat < wordSize s →
    s.mstatus.mie = true → pendEn s = 2 ^ 7 → s.period.toNat ≠ 0 → s.mtime.toNat + s.period.toNat < 2 ^ 64 →
    s.inputs = .irqPoll p :: .command trapSvcWord d1 :: .command rearmWord d2 :: .command trapRetWord d3 ::
      .irqPoll p :: rest →
    ∃ a b c e f, runSteps 1 s = .next a ∧ a.outputs.trapTaken = some true ∧ a.mcause = word (top s + 7) ∧
        a.outputs.nextPc = some (word (target true 7 s)) ∧ a.mstatus.mie = false ∧
      runSteps 2 s = .next b ∧ b.outputs.rdata = some 1 ∧ b.mepc = p ∧
      runSteps 3 s = .next c ∧ mtip c = 0 ∧
      runSteps 4 s = .next e ∧ e.outputs.nextPc = some p ∧ e.mstatus.mie = true ∧
      runSteps 5 s = .next f ∧ f.outputs.trapTaken = some false ∧ f.outputs.nextPc = some p

/-- 60_exceptions.md R172: with the global enable 0 no poll, tick or level change takes a trap or changes a trap register,
however many interrupts become pending. It is an invariant of the step; so no run of them does. A step with no input that
may move changes nothing: the model's idle step (log 7). -/
def Obligations.NoPreemptionWithTheEnableClear : Prop :=
  (∀ s : State, Unpreempted s → ∃ t, step s = .next t ∧ Unpreempted t ∧ t = { s with
    mtime := t.mtime, msipIn := t.msipIn, meipIn := t.meipIn, waiting := t.waiting, inputs := t.inputs,
    outputs := t.outputs }) ∧
  (∀ (n : Nat) (s : State), Unpreempted s → ∃ t, runSteps n s = .next t ∧ Unpreempted t ∧ t = { s with
    mtime := t.mtime, msipIn := t.msipIn, meipIn := t.meipIn, waiting := t.waiting, inputs := t.inputs,
    outputs := t.outputs })

/-- 60_exceptions.md R179: PIN sets the two levels, ends a wait whose wake condition then holds, and changes nothing
else. -/
def Obligations.PinDrivesTheLevels : Prop :=
  ∀ (s : State) (msip meip : Bool) (rest : List Input), s.faultFlag = none → s.inputs = .pin msip meip :: rest →
    ∃ t, step s = .next t ∧
      t = { s with msipIn := msip, meipIn := meip, inputs := rest, outputs := doneOutputs, waiting := t.waiting } ∧
      (t.waiting = true ↔ s.waiting = true ∧ ¬ Wake t)

/-! ## Reset, faults, and what no step changes -/

/-- 70_reset_and_hazards.md R200: what RESET fixes and what it leaves; the values it leaves open are not constrained. That
the two levels stay is R200's sentence; 93_implementation_defined.md U16 calls them `any`, and following R200 there is the
model's choice (log 29). That RESET drives `next_pc` is R200's too; 91_not_in_source.md N20 says otherwise, and following
R200 there is the model's choice (log 30). -/
def Obligations.ResetEventClearsEnablesAndUninstalls : Prop :=
  ∀ (s : State) (rest : List Input), s.faultFlag = none → s.inputs = .reset :: rest →
    ∃ t, step s = .next t ∧ t.mstatus.mie = false ∧
      (Decided s.config → csrValue t .mie = s.config.resetMieReg.toNat &&& 0x888) ∧
      t.tvecInstalled = false ∧ t.waiting = false ∧
      t.outputs = { resp := some .ok, nextPc := some (resetVector s.config) } ∧
      t.msipIn = s.msipIn ∧ t.meipIn = s.meipIn ∧ t.faultFlag = s.faultFlag ∧ t.config = s.config ∧ t.inputs = rest

/-- 10_state.md R43: the values the spec gives right after reset. That `next_pc` is driven is the model's choice between R43
and 91_not_in_source.md N20 (log 30). -/
def Obligations.ResetStateIsMaskedAndUninstalled : Prop :=
  State.reset.mstatus.mie = false ∧ csrValue State.reset .mie = 0 ∧ State.reset.mode = .uninstalled ∧
  State.reset.waiting = false ∧ State.reset.faultFlag = none ∧ State.reset.deliverable = false ∧
  State.reset.outputs.nextPc = some (resetVector State.reset.config)

/-- The state right after reset is legal. It rests on the model's choice of 0 for the registers the spec leaves
unspecified (log 3) and of RESET_VECTOR on `next_pc` (log 30), not on a rule alone. -/
def Obligations.ResetStateIsLegal : Prop := State.Legal State.reset

/-- 10_state.md R22, R24, R28, R30: every step keeps the registers within XLEN bits, every saved and driven pc a multiple
of 4, and the reserved bit of an installed mtvec at 0. -/
def Obligations.EveryStepKeepsTheStateLegal : Prop :=
  ∀ s t : State, State.Legal s → step s = .next t → State.Legal t

/-- 10_state.md R29: once installed, the dispatcher stays installed until RESET. -/
def Obligations.InstalledUntilReset : Prop :=
  ∀ s t : State, step s = .next t → s.tvecInstalled = true → t.tvecInstalled = false →
    ∃ rest, nextInput s.waiting s.inputs = some (.reset, rest)

/-- 10_state.md R34: the counter changes only by TICK, which adds 1, and by reset. -/
def Obligations.CounterChangesOnlyByTickAndReset : Prop :=
  ∀ s t : State, step s = .next t → t.mtime ≠ s.mtime →
    (∃ rest, nextInput s.waiting s.inputs = some (.tick, rest) ∧ t.mtime = s.mtime + 1) ∨
    (∃ rest, nextInput s.waiting s.inputs = some (.reset, rest))

/-- 60_exceptions.md R164, R171: the per-source enables are changed only by a command that writes them, and by reset. -/
def Obligations.EnablesChangeOnlyByCommand : Prop :=
  ∀ s t : State, step s = .next t → t.mie ≠ s.mie →
    (∃ rest, nextInput s.waiting s.inputs = some (.reset, rest)) ∨
    (∃ w d rest i imm, nextInput s.waiting s.inputs = some (.command w d, rest) ∧ decode w = .ok i ∧
      i ∈ csrCommands s.config.csrIe imm)

/-- 10_state.md R45, R44, 40_csr_ops.md R100: what each agent's step leaves alone. Commands leave the counter, the levels
and the fault flag; traps touch only the trap registers; TICK and PIN only the counter, the levels and `waiting`; RESET
leaves the levels (the model's choice, log 29), the fault flag and the operand port; none changes the parameters. -/
def Obligations.EachAgentWritesOnlyItsOwnState : Prop :=
  ∀ (i : Input) (s t : State), perform i s = .next t →
    t.config = s.config ∧ t.faultFlag = s.faultFlag ∧ t.inputs = s.inputs ∧
    (match i with
     | .command _ _ | .load _ _ | .store _ _ _ =>
       t.mtime = s.mtime ∧ t.msipIn = s.msipIn ∧ t.meipIn = s.meipIn ∧ t.draws = s.draws
     | .exc _ _ _ | .irqPoll _ =>
       t = { s with mepc := t.mepc, mcause := t.mcause, mtval := t.mtval, mstatus := t.mstatus, outputs := t.outputs }
     | .tick => t = { s with mtime := t.mtime, waiting := t.waiting, outputs := t.outputs }
     | .pin _ _ => t = { s with msipIn := t.msipIn, meipIn := t.meipIn, waiting := t.waiting, outputs := t.outputs }
     | .reset => t.msipIn = s.msipIn ∧ t.meipIn = s.meipIn ∧ t.wdata = s.wdata)

/-- 10_state.md R41, in the model's form (log 11): the fault flag is sticky: a set flag makes every step that fault,
recording a fault sets it, and no step clears it, RESET included. -/
def Obligations.FaultFlagIsSticky : Prop :=
  (∀ (s : State) (f : Fault), s.faultFlag = some f → step s = .fault f ∧ s.recordStep.faultFlag = some f) ∧
  (∀ (s : State) (f : Fault), step s = .fault f → s.recordStep.faultFlag = some f) ∧
  (∀ s t : State, perform .reset s = .next t → t.faultFlag = s.faultFlag)

/-! ## Software's view of the command port -/

/-- 20_memory.md R61, in the model's form (log 13): an aligned load or store of a mapped timer register is the timer
command of its selector. -/
def Obligations.MappedAccessesAreTimerCommands : Prop :=
  ∀ (s : State) (rest : List Input) (a v : Word), Ready s → WindowsApart s →
    ∀ m ∈ mappedAccesses s.config, a.toNat = m.1 + m.2.1 →
      (s.inputs = .load a m.2.2.1 :: rest → step s = exec (.tmrRead m.2.2.2) { s with inputs := rest }) ∧
      (s.inputs = .store a m.2.2.1 v :: rest →
        step s = exec (.tmrWrite m.2.2.2) { s with inputs := rest, wdata := v })

/-- 20_memory.md R63, in the model's form (log 13): in a mapped timer window an access of 1 or 2 bytes, or one that is
not naturally aligned, is refused. -/
def Obligations.OddTimerAccessesAreRefused : Prop :=
  ∀ (s : State) (rest : List Input) (a v : Word) (width : AccessWidth), Ready s → WindowsApart s →
    a.toNat < wordSize s →
    (s.config.mtimeAddr.toNat ≤ a.toNat ∧ a.toNat < s.config.mtimeAddr.toNat + 8 ∨
      s.config.mtimecmpAddr.toNat ≤ a.toNat ∧ a.toNat < s.config.mtimecmpAddr.toNat + 8) →
    (width = .bytes1 ∨ width = .bytes2 ∨ a.toNat % accessBytes width ≠ 0) →
    (s.inputs = .load a width :: rest → step s = .refused .unsupportedTimerAccess) ∧
    (s.inputs = .store a width v :: rest → step s = .refused .unsupportedTimerAccess)

/-- 30_encoding.md R91: `set_bits` and `clear_bits` do what CSR_SET and CSR_CLEAR of the mask do, whichever form they
expand to; the operand port apart. -/
def Obligations.DriverSetAndClearMeetTheirContract : Prop :=
  ∀ (s : State) (r : Csr) (mask : Word),
    (∀ t, exec (.csrSet (r.selector s.config)) { s with wdata := mask } = .next t →
      ∃ u, perform (callInput s.config (.setBits r mask)) s = .next u ∧ t = { u with wdata := mask }) ∧
    (∀ t, exec (.csrClear (r.selector s.config)) { s with wdata := mask } = .next t →
      ∃ u, perform (callInput s.config (.clearBits r mask)) s = .next u ∧ t = { u with wdata := mask })
end

