-- ==== Sys2Proof/Laws/Bits.lean ====
section
/-! SUPPORT. What the fields of a machine word are as numbers: one lemma for each function of Machine/Bits.lean. -/

namespace Sys2Proof.Machine

theorem truncXlen_toNat (x : XLen) (v : Word) : (truncXlen x v).toNat = v.toNat % 2 ^ xlenBits x := by
  cases x
  · simp only [truncXlen, xlenBits, BitVec.toNat_setWidth]
    omega
  · simp only [truncXlen, xlenBits]
    omega

theorem alignDown_toNat (a : Nat) (v : Word) : (alignDown a v).toNat = v.toNat / a * a := by
  rw [alignDown, BitVec.toNat_ofNat]
  exact Nat.mod_eq_of_lt (lt_of_le_of_lt (Nat.div_mul_le_self _ _) v.isLt)

theorem alignPc_toNat (v : Word) : (alignPc v).toNat = v.toNat / 4 * 4 := by
  have h : alignPc v = (v >>> 2) <<< 2 := by
    ext i hi
    simp only [alignPc, BitVec.getElem_and, BitVec.getElem_not, BitVec.getElem_shiftLeft]
    by_cases h2 : i < 2
    · have : i = 0 ∨ i = 1 := by omega
      rcases this with rfl | rfl <;> simp
    · have h3 : (3#64)[i] = false := by
        rw [← BitVec.getLsbD_eq_getElem, BitVec.getLsbD_ofNat]
        have : Nat.testBit 3 i = false := Nat.testBit_lt_two_pow (by
          calc 3 < 2 ^ 2 := by decide
            _ ≤ 2 ^ i := Nat.pow_le_pow_right (by decide) (by omega))
        simp [this]
      have h4 : 2 + (i - 2) = i := by omega
      simp [h2, h3, h4, BitVec.getLsbD_eq_getElem hi]
  rw [h]
  simp only [BitVec.toNat_shiftLeft, BitVec.toNat_ushiftRight, Nat.shiftRight_eq_div_pow, Nat.shiftLeft_eq]
  have := v.isLt
  omega

theorem pcAligned_iff (v : Word) : pcAligned v = true ↔ v.toNat % 4 = 0 := by
  simp only [pcAligned, beq_iff_eq, ← BitVec.toNat_inj, BitVec.extractLsb'_toNat, BitVec.toNat_ofNat]
  simp

theorem causeCode_toNat (x : XLen) (v : Word) : (causeCode x v).toNat = v.toNat % 2 ^ (xlenBits x - 1) := by
  cases x <;> simp only [causeCode, xlenBits, BitVec.toNat_setWidth] <;> omega

theorem topBit_iff (x : XLen) (v : Word) : topBit x v = true ↔ 2 ^ (xlenBits x - 1) ≤ v.toNat % 2 ^ xlenBits x := by
  have := v.isLt
  cases x <;> simp only [topBit, xlenBits, BitVec.getLsbD, Nat.testBit_eq_decide_div_mod_eq, decide_eq_true_eq] <;> omega

theorem bitAt_toNat (b : Bool) (n : Nat) (h : n < 64) : (bitAt b n).toNat = b.toNat * 2 ^ n := by
  have h64 : 2 ^ n < 2 ^ 64 := Nat.pow_lt_pow_right (by decide) h
  cases b
  · simp [bitAt]
  · simpa [bitAt, Nat.shiftLeft_eq] using h64

theorem lowHalf_toNat (v : Word) : (lowHalf v).toNat = v.toNat % 2 ^ 32 := by
  simp [lowHalf, BitVec.extractLsb'_toNat]

theorem highHalf_toNat (v : Word) : (highHalf v).toNat = v.toNat / 2 ^ 32 := by
  have := v.isLt
  simp only [highHalf, BitVec.extractLsb'_toNat, Nat.shiftRight_eq_div_pow]
  omega

theorem resetVector_fits (c : Config) : (resetVector c).toNat < 2 ^ xlenBits c.xlen := by
  rw [resetVector, truncXlen_toNat]
  exact Nat.mod_lt _ (Nat.two_pow_pos _)

theorem resetVector_aligned (c : Config) : (resetVector c).toNat % 4 = 0 := by
  rw [resetVector, truncXlen_toNat]
  have h : (c.resetVectorHigh ++ 0#2 : BitVec 64).toNat = c.resetVectorHigh.toNat * 4 := by
    rw [BitVec.toNat_append, Nat.shiftLeft_eq]
    simp
  rw [h]
  cases c.xlen <;> simp only [xlenBits] <;> omega

end Sys2Proof.Machine
end

