-- ==== Sys2Proof/Laws/State.lean ====
section
/-! SUPPORT. One lemma for each field under each update of the state, so that no proof unfolds an update. -/

namespace Sys2Proof.Machine

/-! ## `answerOk` -/

@[simp] theorem State.answerOk_config (s : State) (v : Word) : (s.answerOk v).config = s.config := rfl
@[simp] theorem State.answerOk_mstatus (s : State) (v : Word) : (s.answerOk v).mstatus = s.mstatus := rfl
@[simp] theorem State.answerOk_mie (s : State) (v : Word) : (s.answerOk v).mie = s.mie := rfl
@[simp] theorem State.answerOk_mtvec (s : State) (v : Word) : (s.answerOk v).mtvec = s.mtvec := rfl
@[simp] theorem State.answerOk_tvecInstalled (s : State) (v : Word) : (s.answerOk v).tvecInstalled = s.tvecInstalled := rfl
@[simp] theorem State.answerOk_mepc (s : State) (v : Word) : (s.answerOk v).mepc = s.mepc := rfl
@[simp] theorem State.answerOk_mcause (s : State) (v : Word) : (s.answerOk v).mcause = s.mcause := rfl
@[simp] theorem State.answerOk_mtval (s : State) (v : Word) : (s.answerOk v).mtval = s.mtval := rfl
@[simp] theorem State.answerOk_mtime (s : State) (v : Word) : (s.answerOk v).mtime = s.mtime := rfl
@[simp] theorem State.answerOk_mtimecmp (s : State) (v : Word) : (s.answerOk v).mtimecmp = s.mtimecmp := rfl
@[simp] theorem State.answerOk_period (s : State) (v : Word) : (s.answerOk v).period = s.period := rfl
@[simp] theorem State.answerOk_lastTime (s : State) (v : Word) : (s.answerOk v).lastTime = s.lastTime := rfl
@[simp] theorem State.answerOk_msipIn (s : State) (v : Word) : (s.answerOk v).msipIn = s.msipIn := rfl
@[simp] theorem State.answerOk_meipIn (s : State) (v : Word) : (s.answerOk v).meipIn = s.meipIn := rfl
@[simp] theorem State.answerOk_waiting (s : State) (v : Word) : (s.answerOk v).waiting = s.waiting := rfl
@[simp] theorem State.answerOk_faultFlag (s : State) (v : Word) : (s.answerOk v).faultFlag = s.faultFlag := rfl
@[simp] theorem State.answerOk_wdata (s : State) (v : Word) : (s.answerOk v).wdata = s.wdata := rfl
@[simp] theorem State.answerOk_outputs (s : State) (v : Word) : (s.answerOk v).outputs = { resp := some .ok, rdata := some v } := rfl
@[simp] theorem State.answerOk_inputs (s : State) (v : Word) : (s.answerOk v).inputs = s.inputs := rfl
@[simp] theorem State.answerOk_draws (s : State) (v : Word) : (s.answerOk v).draws = s.draws := rfl

/-! ## `answerIllegal` -/

@[simp] theorem State.answerIllegal_config (s : State) : (s.answerIllegal).config = s.config := rfl
@[simp] theorem State.answerIllegal_mstatus (s : State) : (s.answerIllegal).mstatus = s.mstatus := rfl
@[simp] theorem State.answerIllegal_mie (s : State) : (s.answerIllegal).mie = s.mie := rfl
@[simp] theorem State.answerIllegal_mtvec (s : State) : (s.answerIllegal).mtvec = s.mtvec := rfl
@[simp] theorem State.answerIllegal_tvecInstalled (s : State) : (s.answerIllegal).tvecInstalled = s.tvecInstalled := rfl
@[simp] theorem State.answerIllegal_mepc (s : State) : (s.answerIllegal).mepc = s.mepc := rfl
@[simp] theorem State.answerIllegal_mcause (s : State) : (s.answerIllegal).mcause = s.mcause := rfl
@[simp] theorem State.answerIllegal_mtval (s : State) : (s.answerIllegal).mtval = s.mtval := rfl
@[simp] theorem State.answerIllegal_mtime (s : State) : (s.answerIllegal).mtime = s.mtime := rfl
@[simp] theorem State.answerIllegal_mtimecmp (s : State) : (s.answerIllegal).mtimecmp = s.mtimecmp := rfl
@[simp] theorem State.answerIllegal_period (s : State) : (s.answerIllegal).period = s.period := rfl
@[simp] theorem State.answerIllegal_lastTime (s : State) : (s.answerIllegal).lastTime = s.lastTime := rfl
@[simp] theorem State.answerIllegal_msipIn (s : State) : (s.answerIllegal).msipIn = s.msipIn := rfl
@[simp] theorem State.answerIllegal_meipIn (s : State) : (s.answerIllegal).meipIn = s.meipIn := rfl
@[simp] theorem State.answerIllegal_waiting (s : State) : (s.answerIllegal).waiting = s.waiting := rfl
@[simp] theorem State.answerIllegal_faultFlag (s : State) : (s.answerIllegal).faultFlag = s.faultFlag := rfl
@[simp] theorem State.answerIllegal_wdata (s : State) : (s.answerIllegal).wdata = s.wdata := rfl
@[simp] theorem State.answerIllegal_outputs (s : State) : (s.answerIllegal).outputs = { resp := some .illegal, rdata := some 0 } := rfl
@[simp] theorem State.answerIllegal_inputs (s : State) : (s.answerIllegal).inputs = s.inputs := rfl
@[simp] theorem State.answerIllegal_draws (s : State) : (s.answerIllegal).draws = s.draws := rfl

/-! ## `enterTrap` -/

@[simp] theorem State.enterTrap_config (s : State) (i : Bool) (code pc tval target : Word) : (s.enterTrap i code pc tval target).config = s.config := rfl
@[simp] theorem State.enterTrap_mstatus (s : State) (i : Bool) (code pc tval target : Word) : (s.enterTrap i code pc tval target).mstatus = { mie := false, mpie := s.mstatus.mie } := rfl
@[simp] theorem State.enterTrap_mie (s : State) (i : Bool) (code pc tval target : Word) : (s.enterTrap i code pc tval target).mie = s.mie := rfl
@[simp] theorem State.enterTrap_mtvec (s : State) (i : Bool) (code pc tval target : Word) : (s.enterTrap i code pc tval target).mtvec = s.mtvec := rfl
@[simp] theorem State.enterTrap_tvecInstalled (s : State) (i : Bool) (code pc tval target : Word) : (s.enterTrap i code pc tval target).tvecInstalled = s.tvecInstalled := rfl
@[simp] theorem State.enterTrap_mepc (s : State) (i : Bool) (code pc tval target : Word) : (s.enterTrap i code pc tval target).mepc = alignPc pc := rfl
@[simp] theorem State.enterTrap_mcause (s : State) (i : Bool) (code pc tval target : Word) : (s.enterTrap i code pc tval target).mcause = bitAt i (xlenBits s.config.xlen - 1) ||| code := rfl
@[simp] theorem State.enterTrap_mtval (s : State) (i : Bool) (code pc tval target : Word) : (s.enterTrap i code pc tval target).mtval = tval := rfl
@[simp] theorem State.enterTrap_mtime (s : State) (i : Bool) (code pc tval target : Word) : (s.enterTrap i code pc tval target).mtime = s.mtime := rfl
@[simp] theorem State.enterTrap_mtimecmp (s : State) (i : Bool) (code pc tval target : Word) : (s.enterTrap i code pc tval target).mtimecmp = s.mtimecmp := rfl
@[simp] theorem State.enterTrap_period (s : State) (i : Bool) (code pc tval target : Word) : (s.enterTrap i code pc tval target).period = s.period := rfl
@[simp] theorem State.enterTrap_lastTime (s : State) (i : Bool) (code pc tval target : Word) : (s.enterTrap i code pc tval target).lastTime = s.lastTime := rfl
@[simp] theorem State.enterTrap_msipIn (s : State) (i : Bool) (code pc tval target : Word) : (s.enterTrap i code pc tval target).msipIn = s.msipIn := rfl
@[simp] theorem State.enterTrap_meipIn (s : State) (i : Bool) (code pc tval target : Word) : (s.enterTrap i code pc tval target).meipIn = s.meipIn := rfl
@[simp] theorem State.enterTrap_waiting (s : State) (i : Bool) (code pc tval target : Word) : (s.enterTrap i code pc tval target).waiting = s.waiting := rfl
@[simp] theorem State.enterTrap_faultFlag (s : State) (i : Bool) (code pc tval target : Word) : (s.enterTrap i code pc tval target).faultFlag = s.faultFlag := rfl
@[simp] theorem State.enterTrap_wdata (s : State) (i : Bool) (code pc tval target : Word) : (s.enterTrap i code pc tval target).wdata = s.wdata := rfl
@[simp] theorem State.enterTrap_outputs (s : State) (i : Bool) (code pc tval target : Word) : (s.enterTrap i code pc tval target).outputs = { resp := some .ok, trapTaken := some true, nextPc := some target } := rfl
@[simp] theorem State.enterTrap_inputs (s : State) (i : Bool) (code pc tval target : Word) : (s.enterTrap i code pc tval target).inputs = s.inputs := rfl
@[simp] theorem State.enterTrap_draws (s : State) (i : Bool) (code pc tval target : Word) : (s.enterTrap i code pc tval target).draws = s.draws := rfl

/-! ## `returnFromTrap` -/

@[simp] theorem State.returnFromTrap_config (s : State) : (s.returnFromTrap).config = s.config := rfl
@[simp] theorem State.returnFromTrap_mstatus (s : State) : (s.returnFromTrap).mstatus = { mie := s.mstatus.mpie, mpie := true } := rfl
@[simp] theorem State.returnFromTrap_mie (s : State) : (s.returnFromTrap).mie = s.mie := rfl
@[simp] theorem State.returnFromTrap_mtvec (s : State) : (s.returnFromTrap).mtvec = s.mtvec := rfl
@[simp] theorem State.returnFromTrap_tvecInstalled (s : State) : (s.returnFromTrap).tvecInstalled = s.tvecInstalled := rfl
@[simp] theorem State.returnFromTrap_mepc (s : State) : (s.returnFromTrap).mepc = s.mepc := rfl
@[simp] theorem State.returnFromTrap_mcause (s : State) : (s.returnFromTrap).mcause = s.mcause := rfl
@[simp] theorem State.returnFromTrap_mtval (s : State) : (s.returnFromTrap).mtval = s.mtval := rfl
@[simp] theorem State.returnFromTrap_mtime (s : State) : (s.returnFromTrap).mtime = s.mtime := rfl
@[simp] theorem State.returnFromTrap_mtimecmp (s : State) : (s.returnFromTrap).mtimecmp = s.mtimecmp := rfl
@[simp] theorem State.returnFromTrap_period (s : State) : (s.returnFromTrap).period = s.period := rfl
@[simp] theorem State.returnFromTrap_lastTime (s : State) : (s.returnFromTrap).lastTime = s.lastTime := rfl
@[simp] theorem State.returnFromTrap_msipIn (s : State) : (s.returnFromTrap).msipIn = s.msipIn := rfl
@[simp] theorem State.returnFromTrap_meipIn (s : State) : (s.returnFromTrap).meipIn = s.meipIn := rfl
@[simp] theorem State.returnFromTrap_waiting (s : State) : (s.returnFromTrap).waiting = s.waiting := rfl
@[simp] theorem State.returnFromTrap_faultFlag (s : State) : (s.returnFromTrap).faultFlag = s.faultFlag := rfl
@[simp] theorem State.returnFromTrap_wdata (s : State) : (s.returnFromTrap).wdata = s.wdata := rfl
@[simp] theorem State.returnFromTrap_outputs (s : State) : (s.returnFromTrap).outputs = { resp := some .ok, rdata := some 0, nextPc := some (csrRead s .mepc) } := rfl
@[simp] theorem State.returnFromTrap_inputs (s : State) : (s.returnFromTrap).inputs = s.inputs := rfl
@[simp] theorem State.returnFromTrap_draws (s : State) : (s.returnFromTrap).draws = s.draws := rfl

/-! ## `wakeIfReady` -/

@[simp] theorem State.wakeIfReady_config (s : State) : (s.wakeIfReady).config = s.config := rfl
@[simp] theorem State.wakeIfReady_mstatus (s : State) : (s.wakeIfReady).mstatus = s.mstatus := rfl
@[simp] theorem State.wakeIfReady_mie (s : State) : (s.wakeIfReady).mie = s.mie := rfl
@[simp] theorem State.wakeIfReady_mtvec (s : State) : (s.wakeIfReady).mtvec = s.mtvec := rfl
@[simp] theorem State.wakeIfReady_tvecInstalled (s : State) : (s.wakeIfReady).tvecInstalled = s.tvecInstalled := rfl
@[simp] theorem State.wakeIfReady_mepc (s : State) : (s.wakeIfReady).mepc = s.mepc := rfl
@[simp] theorem State.wakeIfReady_mcause (s : State) : (s.wakeIfReady).mcause = s.mcause := rfl
@[simp] theorem State.wakeIfReady_mtval (s : State) : (s.wakeIfReady).mtval = s.mtval := rfl
@[simp] theorem State.wakeIfReady_mtime (s : State) : (s.wakeIfReady).mtime = s.mtime := rfl
@[simp] theorem State.wakeIfReady_mtimecmp (s : State) : (s.wakeIfReady).mtimecmp = s.mtimecmp := rfl
@[simp] theorem State.wakeIfReady_period (s : State) : (s.wakeIfReady).period = s.period := rfl
@[simp] theorem State.wakeIfReady_lastTime (s : State) : (s.wakeIfReady).lastTime = s.lastTime := rfl
@[simp] theorem State.wakeIfReady_msipIn (s : State) : (s.wakeIfReady).msipIn = s.msipIn := rfl
@[simp] theorem State.wakeIfReady_meipIn (s : State) : (s.wakeIfReady).meipIn = s.meipIn := rfl
@[simp] theorem State.wakeIfReady_waiting (s : State) : (s.wakeIfReady).waiting = (s.waiting && !s.wake) := rfl
@[simp] theorem State.wakeIfReady_faultFlag (s : State) : (s.wakeIfReady).faultFlag = s.faultFlag := rfl
@[simp] theorem State.wakeIfReady_wdata (s : State) : (s.wakeIfReady).wdata = s.wdata := rfl
@[simp] theorem State.wakeIfReady_outputs (s : State) : (s.wakeIfReady).outputs = s.outputs := rfl
@[simp] theorem State.wakeIfReady_inputs (s : State) : (s.wakeIfReady).inputs = s.inputs := rfl
@[simp] theorem State.wakeIfReady_draws (s : State) : (s.wakeIfReady).draws = s.draws := rfl

/-! ## `pollNothing` -/

@[simp] theorem State.pollNothing_config (s : State) (pc : Word) : (s.pollNothing pc).config = s.config := rfl
@[simp] theorem State.pollNothing_mstatus (s : State) (pc : Word) : (s.pollNothing pc).mstatus = s.mstatus := rfl
@[simp] theorem State.pollNothing_mie (s : State) (pc : Word) : (s.pollNothing pc).mie = s.mie := rfl
@[simp] theorem State.pollNothing_mtvec (s : State) (pc : Word) : (s.pollNothing pc).mtvec = s.mtvec := rfl
@[simp] theorem State.pollNothing_tvecInstalled (s : State) (pc : Word) : (s.pollNothing pc).tvecInstalled = s.tvecInstalled := rfl
@[simp] theorem State.pollNothing_mepc (s : State) (pc : Word) : (s.pollNothing pc).mepc = s.mepc := rfl
@[simp] theorem State.pollNothing_mcause (s : State) (pc : Word) : (s.pollNothing pc).mcause = s.mcause := rfl
@[simp] theorem State.pollNothing_mtval (s : State) (pc : Word) : (s.pollNothing pc).mtval = s.mtval := rfl
@[simp] theorem State.pollNothing_mtime (s : State) (pc : Word) : (s.pollNothing pc).mtime = s.mtime := rfl
@[simp] theorem State.pollNothing_mtimecmp (s : State) (pc : Word) : (s.pollNothing pc).mtimecmp = s.mtimecmp := rfl
@[simp] theorem State.pollNothing_period (s : State) (pc : Word) : (s.pollNothing pc).period = s.period := rfl
@[simp] theorem State.pollNothing_lastTime (s : State) (pc : Word) : (s.pollNothing pc).lastTime = s.lastTime := rfl
@[simp] theorem State.pollNothing_msipIn (s : State) (pc : Word) : (s.pollNothing pc).msipIn = s.msipIn := rfl
@[simp] theorem State.pollNothing_meipIn (s : State) (pc : Word) : (s.pollNothing pc).meipIn = s.meipIn := rfl
@[simp] theorem State.pollNothing_waiting (s : State) (pc : Word) : (s.pollNothing pc).waiting = s.waiting := rfl
@[simp] theorem State.pollNothing_faultFlag (s : State) (pc : Word) : (s.pollNothing pc).faultFlag = s.faultFlag := rfl
@[simp] theorem State.pollNothing_wdata (s : State) (pc : Word) : (s.pollNothing pc).wdata = s.wdata := rfl
@[simp] theorem State.pollNothing_outputs (s : State) (pc : Word) : (s.pollNothing pc).outputs = { resp := some .ok, trapTaken := some false, nextPc := some pc } := rfl
@[simp] theorem State.pollNothing_inputs (s : State) (pc : Word) : (s.pollNothing pc).inputs = s.inputs := rfl
@[simp] theorem State.pollNothing_draws (s : State) (pc : Word) : (s.pollNothing pc).draws = s.draws := rfl

/-! ## `tick` -/

@[simp] theorem State.tick_config (s : State) : (s.tick).config = s.config := rfl
@[simp] theorem State.tick_mstatus (s : State) : (s.tick).mstatus = s.mstatus := rfl
@[simp] theorem State.tick_mie (s : State) : (s.tick).mie = s.mie := rfl
@[simp] theorem State.tick_mtvec (s : State) : (s.tick).mtvec = s.mtvec := rfl
@[simp] theorem State.tick_tvecInstalled (s : State) : (s.tick).tvecInstalled = s.tvecInstalled := rfl
@[simp] theorem State.tick_mepc (s : State) : (s.tick).mepc = s.mepc := rfl
@[simp] theorem State.tick_mcause (s : State) : (s.tick).mcause = s.mcause := rfl
@[simp] theorem State.tick_mtval (s : State) : (s.tick).mtval = s.mtval := rfl
@[simp] theorem State.tick_mtime (s : State) : (s.tick).mtime = s.mtime + 1 := rfl
@[simp] theorem State.tick_mtimecmp (s : State) : (s.tick).mtimecmp = s.mtimecmp := rfl
@[simp] theorem State.tick_period (s : State) : (s.tick).period = s.period := rfl
@[simp] theorem State.tick_lastTime (s : State) : (s.tick).lastTime = s.lastTime := rfl
@[simp] theorem State.tick_msipIn (s : State) : (s.tick).msipIn = s.msipIn := rfl
@[simp] theorem State.tick_meipIn (s : State) : (s.tick).meipIn = s.meipIn := rfl
theorem State.tick_waiting (s : State) : (s.tick).waiting = (s.waiting && !s.tick.wake) := rfl
@[simp] theorem State.tick_faultFlag (s : State) : (s.tick).faultFlag = s.faultFlag := rfl
@[simp] theorem State.tick_wdata (s : State) : (s.tick).wdata = s.wdata := rfl
@[simp] theorem State.tick_outputs (s : State) : (s.tick).outputs = { resp := some .ok } := rfl
@[simp] theorem State.tick_inputs (s : State) : (s.tick).inputs = s.inputs := rfl
@[simp] theorem State.tick_draws (s : State) : (s.tick).draws = s.draws := rfl

/-! ## `drivePins` -/

@[simp] theorem State.drivePins_config (s : State) (a b : Bool) : (s.drivePins a b).config = s.config := rfl
@[simp] theorem State.drivePins_mstatus (s : State) (a b : Bool) : (s.drivePins a b).mstatus = s.mstatus := rfl
@[simp] theorem State.drivePins_mie (s : State) (a b : Bool) : (s.drivePins a b).mie = s.mie := rfl
@[simp] theorem State.drivePins_mtvec (s : State) (a b : Bool) : (s.drivePins a b).mtvec = s.mtvec := rfl
@[simp] theorem State.drivePins_tvecInstalled (s : State) (a b : Bool) : (s.drivePins a b).tvecInstalled = s.tvecInstalled := rfl
@[simp] theorem State.drivePins_mepc (s : State) (a b : Bool) : (s.drivePins a b).mepc = s.mepc := rfl
@[simp] theorem State.drivePins_mcause (s : State) (a b : Bool) : (s.drivePins a b).mcause = s.mcause := rfl
@[simp] theorem State.drivePins_mtval (s : State) (a b : Bool) : (s.drivePins a b).mtval = s.mtval := rfl
@[simp] theorem State.drivePins_mtime (s : State) (a b : Bool) : (s.drivePins a b).mtime = s.mtime := rfl
@[simp] theorem State.drivePins_mtimecmp (s : State) (a b : Bool) : (s.drivePins a b).mtimecmp = s.mtimecmp := rfl
@[simp] theorem State.drivePins_period (s : State) (a b : Bool) : (s.drivePins a b).period = s.period := rfl
@[simp] theorem State.drivePins_lastTime (s : State) (a b : Bool) : (s.drivePins a b).lastTime = s.lastTime := rfl
@[simp] theorem State.drivePins_msipIn (s : State) (a b : Bool) : (s.drivePins a b).msipIn = a := rfl
@[simp] theorem State.drivePins_meipIn (s : State) (a b : Bool) : (s.drivePins a b).meipIn = b := rfl
theorem State.drivePins_waiting (s : State) (a b : Bool) : (s.drivePins a b).waiting = (s.waiting && !(s.drivePins a b).wake) := rfl
@[simp] theorem State.drivePins_faultFlag (s : State) (a b : Bool) : (s.drivePins a b).faultFlag = s.faultFlag := rfl
@[simp] theorem State.drivePins_wdata (s : State) (a b : Bool) : (s.drivePins a b).wdata = s.wdata := rfl
@[simp] theorem State.drivePins_outputs (s : State) (a b : Bool) : (s.drivePins a b).outputs = { resp := some .ok } := rfl
@[simp] theorem State.drivePins_inputs (s : State) (a b : Bool) : (s.drivePins a b).inputs = s.inputs := rfl
@[simp] theorem State.drivePins_draws (s : State) (a b : Bool) : (s.drivePins a b).draws = s.draws := rfl

/-! ## `resetEvent` -/

@[simp] theorem State.resetEvent_config (s : State) : (s.resetEvent).config = s.config := rfl
@[simp] theorem State.resetEvent_mstatus (s : State) : (s.resetEvent).mstatus = { mie := false, mpie := (s.draw 0).getLsbD 0 } := rfl
@[simp] theorem State.resetEvent_mie (s : State) : (s.resetEvent).mie = enableOfWord s.config s.config.resetMieReg := rfl
@[simp] theorem State.resetEvent_mtvec (s : State) : (s.resetEvent).mtvec = truncXlen s.config.xlen (s.draw 1) := rfl
@[simp] theorem State.resetEvent_tvecInstalled (s : State) : (s.resetEvent).tvecInstalled = false := rfl
@[simp] theorem State.resetEvent_mepc (s : State) : (s.resetEvent).mepc = alignPc (truncXlen s.config.xlen (s.draw 2)) := rfl
@[simp] theorem State.resetEvent_mcause (s : State) : (s.resetEvent).mcause = truncXlen s.config.xlen (s.draw 3) := rfl
@[simp] theorem State.resetEvent_mtval (s : State) : (s.resetEvent).mtval = truncXlen s.config.xlen (s.draw 4) := rfl
@[simp] theorem State.resetEvent_mtime (s : State) : (s.resetEvent).mtime = s.draw 5 := rfl
@[simp] theorem State.resetEvent_mtimecmp (s : State) : (s.resetEvent).mtimecmp = s.draw 6 := rfl
@[simp] theorem State.resetEvent_period (s : State) : (s.resetEvent).period = s.draw 7 := rfl
@[simp] theorem State.resetEvent_lastTime (s : State) : (s.resetEvent).lastTime = s.draw 8 := rfl
@[simp] theorem State.resetEvent_msipIn (s : State) : (s.resetEvent).msipIn = s.msipIn := rfl
@[simp] theorem State.resetEvent_meipIn (s : State) : (s.resetEvent).meipIn = s.meipIn := rfl
@[simp] theorem State.resetEvent_waiting (s : State) : (s.resetEvent).waiting = false := rfl
@[simp] theorem State.resetEvent_faultFlag (s : State) : (s.resetEvent).faultFlag = s.faultFlag := rfl
@[simp] theorem State.resetEvent_wdata (s : State) : (s.resetEvent).wdata = s.wdata := rfl
@[simp] theorem State.resetEvent_outputs (s : State) : (s.resetEvent).outputs = { resp := some .ok, nextPc := some (resetVector s.config) } := rfl
@[simp] theorem State.resetEvent_inputs (s : State) : (s.resetEvent).inputs = s.inputs := rfl
@[simp] theorem State.resetEvent_draws (s : State) : (s.resetEvent).draws = s.draws + 9 := rfl

/-! ## `raiseFlag` -/

@[simp] theorem State.raiseFlag_config (s : State) (f : Fault) : (s.raiseFlag f).config = s.config := rfl
@[simp] theorem State.raiseFlag_mstatus (s : State) (f : Fault) : (s.raiseFlag f).mstatus = { mie := (s.draw 0).getLsbD 0, mpie := (s.draw 1).getLsbD 0 } := rfl
@[simp] theorem State.raiseFlag_mie (s : State) (f : Fault) : (s.raiseFlag f).mie = { msie := (s.draw 2).getLsbD 0, mtie := (s.draw 3).getLsbD 0, meie := (s.draw 4).getLsbD 0 } := rfl
@[simp] theorem State.raiseFlag_mtvec (s : State) (f : Fault) : (s.raiseFlag f).mtvec = truncXlen s.config.xlen (s.draw 5) := rfl
@[simp] theorem State.raiseFlag_tvecInstalled (s : State) (f : Fault) : (s.raiseFlag f).tvecInstalled = (s.draw 6).getLsbD 0 := rfl
@[simp] theorem State.raiseFlag_mepc (s : State) (f : Fault) : (s.raiseFlag f).mepc = alignPc (truncXlen s.config.xlen (s.draw 7)) := rfl
@[simp] theorem State.raiseFlag_mcause (s : State) (f : Fault) : (s.raiseFlag f).mcause = truncXlen s.config.xlen (s.draw 8) := rfl
@[simp] theorem State.raiseFlag_mtval (s : State) (f : Fault) : (s.raiseFlag f).mtval = truncXlen s.config.xlen (s.draw 9) := rfl
@[simp] theorem State.raiseFlag_mtime (s : State) (f : Fault) : (s.raiseFlag f).mtime = s.draw 10 := rfl
@[simp] theorem State.raiseFlag_mtimecmp (s : State) (f : Fault) : (s.raiseFlag f).mtimecmp = s.draw 11 := rfl
@[simp] theorem State.raiseFlag_period (s : State) (f : Fault) : (s.raiseFlag f).period = s.draw 12 := rfl
@[simp] theorem State.raiseFlag_lastTime (s : State) (f : Fault) : (s.raiseFlag f).lastTime = s.draw 13 := rfl
@[simp] theorem State.raiseFlag_msipIn (s : State) (f : Fault) : (s.raiseFlag f).msipIn = (s.draw 14).getLsbD 0 := rfl
@[simp] theorem State.raiseFlag_meipIn (s : State) (f : Fault) : (s.raiseFlag f).meipIn = (s.draw 15).getLsbD 0 := rfl
@[simp] theorem State.raiseFlag_waiting (s : State) (f : Fault) : (s.raiseFlag f).waiting = (s.draw 16).getLsbD 0 := rfl
@[simp] theorem State.raiseFlag_faultFlag (s : State) (f : Fault) : (s.raiseFlag f).faultFlag = some f := rfl
@[simp] theorem State.raiseFlag_wdata (s : State) (f : Fault) : (s.raiseFlag f).wdata = s.wdata := rfl
@[simp] theorem State.raiseFlag_outputs (s : State) (f : Fault) : (s.raiseFlag f).outputs = {} := rfl
@[simp] theorem State.raiseFlag_inputs (s : State) (f : Fault) : (s.raiseFlag f).inputs = s.inputs := rfl
@[simp] theorem State.raiseFlag_draws (s : State) (f : Fault) : (s.raiseFlag f).draws = s.draws + 17 := rfl

end Sys2Proof.Machine
end

