-- ==== Sys2Proof/Laws/Ops.lean ====
section
/-! SUPPORT. For each shared operation, what it can do, said once: the values of the reading operations as numbers, and for
an operation that may stop, what a next state of it is. -/

namespace Sys2Proof.Machine

/-! ## Selectors -/

theorem Csr.mem_all (r : Csr) : r ∈ Csr.all := by cases r <;> decide

theorem Csr.ofSelector_eq_some {c : Config} {sel : Selector} {r : Csr} (h : Csr.ofSelector c sel = some r) :
    sel = r.selector c := by
  have := List.find?_some h
  simpa using (eq_of_beq this).symm

theorem Csr.ofSelector_eq_none {c : Config} {sel : Selector} :
    Csr.ofSelector c sel = none ↔ ∀ r : Csr, sel ≠ r.selector c := by
  rw [Csr.ofSelector, List.find?_eq_none]
  exact ⟨fun h r e => h r (Csr.mem_all r) (by simp [e]), fun h r _ e => h r (eq_of_beq e).symm⟩

/-- Where the seven selectors differ, each names its register. -/
theorem Csr.ofSelector_selector {c : Config} (h : ∀ r q : Csr, r.selector c = q.selector c → r = q) (r : Csr) :
    Csr.ofSelector c (r.selector c) = some r := by
  cases hq : Csr.ofSelector c (r.selector c) with
  | none => exact absurd rfl (Csr.ofSelector_eq_none.mp hq r)
  | some q => rw [h r q (Csr.ofSelector_eq_some hq)]

theorem TimerReg.ofSelector_selector (r : TimerReg) : TimerReg.ofSelector r.selector = some r := by cases r <;> decide

theorem TimerReg.ofSelector_eq_some {sel : Selector} {r : TimerReg} (h : TimerReg.ofSelector sel = some r) :
    sel = r.selector := by
  unfold TimerReg.ofSelector at h
  repeat' split at h
  all_goals first | (cases h; assumption) | cases h

/-! ## The decided numbers (00_scope.md R8) -/

theorem Decided.csrStatus {c : Config} (h : Decided c) : c.csrStatus = 0x300#12 := by rw [h]
theorem Decided.csrIe {c : Config} (h : Decided c) : c.csrIe = 0x304#12 := by rw [h]
theorem Decided.csrTvec {c : Config} (h : Decided c) : c.csrTvec = 0x305#12 := by rw [h]
theorem Decided.csrIp {c : Config} (h : Decided c) : c.csrIp = 0x344#12 := by rw [h]
theorem Decided.statusMie {c : Config} (h : Decided c) : c.statusMie = 3 := by rw [h]
theorem Decided.statusMpie {c : Config} (h : Decided c) : c.statusMpie = 7 := by rw [h]
theorem Decided.statusMpp {c : Config} (h : Decided c) : c.statusMpp = 11 := by rw [h]
theorem Decided.irqMsi {c : Config} (h : Decided c) : c.irqMsi = 3 := by rw [h]
theorem Decided.irqMti {c : Config} (h : Decided c) : c.irqMti = 7 := by rw [h]
theorem Decided.irqMei {c : Config} (h : Decided c) : c.irqMei = 11 := by rw [h]
theorem Decided.excEcallM {c : Config} (h : Decided c) : c.excEcallM = 11 := by rw [h]
theorem Decided.directAlign {c : Config} (h : Decided c) : c.directAlign = 4 := by rw [h]

/-- The decided selectors are those of 10_state.md R25. -/
theorem Decided.selector {c : Config} (h : Decided c) (r : Csr) : r.selector c = r.selector Config.platform := by
  cases r <;> simp only [Csr.selector] <;> rw [h] <;> rfl

/-- The decided selectors differ. -/
theorem Decided.selectors {c : Config} (h : Decided c) (r q : Csr) (e : r.selector c = q.selector c) : r = q := by
  rw [h.selector, h.selector] at e
  revert e
  cases r <;> cases q <;> decide

/-! ## Reading a CSR -/

theorem csrRead_mstatus_toNat {s : State} (h : Decided s.config) :
    (csrRead s .mstatus).toNat = 0x1800 + 2 ^ 7 * s.mstatus.mpie.toNat + 2 ^ 3 * s.mstatus.mie.toNat := by
  simp only [csrRead, h.statusMie, h.statusMpie, h.statusMpp]
  cases s.mstatus.mie <;> cases s.mstatus.mpie <;> rfl

theorem sourceBits_toNat {c : Config} (h : Decided c) (b : IrqSource → Bool) :
    (sourceBits c b).toNat =
      2 ^ 11 * (b .external).toNat + 2 ^ 7 * (b .timer).toNat + 2 ^ 3 * (b .software).toNat := by
  simp only [sourceBits, irqNumber, h.irqMsi, h.irqMti, h.irqMei]
  cases b .software <;> cases b .timer <;> cases b .external <;> rfl

theorem csrRead_mie_toNat {s : State} (h : Decided s.config) :
    (csrRead s .mie).toNat = 2 ^ 11 * s.mie.meie.toNat + 2 ^ 7 * s.mie.mtie.toNat + 2 ^ 3 * s.mie.msie.toNat :=
  sourceBits_toNat h s.enabled

theorem csrRead_mip_toNat {s : State} (h : Decided s.config) :
    (csrRead s .mip).toNat = 2 ^ 11 * s.meipIn.toNat + 2 ^ 7 * s.mtip.toNat + 2 ^ 3 * s.msipIn.toNat :=
  sourceBits_toNat h s.pending

theorem csrRead_mtvec_toNat (s : State) : (csrRead s .mtvec).toNat = s.mtvec.toNat % 2 ^ xlenBits s.config.xlen :=
  truncXlen_toNat _ _

theorem csrRead_mepc_toNat (s : State) :
    (csrRead s .mepc).toNat = s.mepc.toNat % 2 ^ xlenBits s.config.xlen / 4 * 4 := by
  simp only [csrRead, alignPc_toNat, truncXlen_toNat]

theorem csrRead_mcause_toNat (s : State) : (csrRead s .mcause).toNat = s.mcause.toNat % 2 ^ xlenBits s.config.xlen :=
  truncXlen_toNat _ _

theorem csrRead_mtval_toNat (s : State) : (csrRead s .mtval).toNat = s.mtval.toNat % 2 ^ xlenBits s.config.xlen :=
  truncXlen_toNat _ _

theorem base_toNat (s : State) : s.base.toNat =
    s.mtvec.toNat % 2 ^ xlenBits s.config.xlen / s.config.directAlign * s.config.directAlign := by
  rw [State.base, alignDown_toNat, truncXlen_toNat]

theorem operand_toNat (s : State) : (wdataOperand s).toNat = s.wdata.toNat % 2 ^ xlenBits s.config.xlen :=
  truncXlen_toNat _ _

theorem immOperand_toNat (imm : Imm5) : (immOperand imm).toNat = imm.toNat := by
  have := imm.isLt
  simp only [immOperand, BitVec.toNat_setWidth]
  omega

/-! ## Storing a CSR -/

/-- A store to mtvec refuses exactly where it would store the reserved bit. -/
theorem tvecStore_cases (installs : Bool) (new : Word) (s : State) :
    ((s.tvecInstalled || installs) = false ∧ tvecStore installs new s = .next s) ∨
    ((s.tvecInstalled || installs) = true ∧ new.getLsbD 1 = true ∧
      tvecStore installs new s = .refused .reservedTvecMode) ∨
    ((s.tvecInstalled || installs) = true ∧ new.getLsbD 1 = false ∧
      tvecStore installs new s = .next { s with mtvec := truncXlen s.config.xlen new, tvecInstalled := true }) := by
  unfold tvecStore
  cases h1 : (s.tvecInstalled || installs) <;> cases h2 : new.getLsbD 1 <;> simp

/-- A store to a CSR changes the stored fields of that register alone. -/
theorem csrStore_next {installs : Bool} {r : Csr} {new : Word} {s t : State} (h : csrStore installs r new s = .next t) :
    (r = .mstatus ∧ t = { s with mstatus := statusOfWord s.config new }) ∨
    (r = .mie ∧ t = { s with mie := enableOfWord s.config new }) ∨
    (r = .mtvec ∧ (s.tvecInstalled || installs) = false ∧ t = s) ∨
    (r = .mtvec ∧ (s.tvecInstalled || installs) = true ∧ new.getLsbD 1 = false ∧
      t = { s with mtvec := truncXlen s.config.xlen new, tvecInstalled := true }) ∨
    (r = .mepc ∧ t = { s with mepc := alignPc (truncXlen s.config.xlen new) }) ∨
    (r = .mcause ∧ t = { s with mcause := truncXlen s.config.xlen new }) ∨
    (r = .mtval ∧ t = { s with mtval := truncXlen s.config.xlen new }) ∨
    (r = .mip ∧ t = s) := by
  cases r <;> simp only [csrStore, Host.Outcome.next.injEq] at h
  case mtvec =>
    rcases tvecStore_cases installs new s with ⟨h1, h2⟩ | ⟨-, -, h2⟩ | ⟨h1, h3, h2⟩ <;> rw [h2] at h
    · cases h; simp [h1]
    · cases h
    · cases h; exact .inr (.inr (.inr (.inl ⟨rfl, h1, h3, rfl⟩)))
  all_goals subst h; simp

/-- A store to a CSR never faults. -/
theorem csrStore_ne_fault (installs : Bool) (r : Csr) (new : Word) (s : State) (f : Fault) :
    csrStore installs r new s ≠ .fault f := by
  cases r <;> simp only [csrStore, ne_eq, reduceCtorEq, not_false_eq_true]
  rcases tvecStore_cases installs new s with ⟨-, h⟩ | ⟨-, -, h⟩ | ⟨-, -, h⟩ <;> simp [h]

/-- A store to a CSR refuses only the reserved bit of mtvec. -/
theorem csrStore_refused {installs : Bool} {r : Csr} {new : Word} {s : State} {e : Refusal}
    (h : csrStore installs r new s = .refused e) :
    e = .reservedTvecMode ∧ r = .mtvec ∧ (s.tvecInstalled || installs) = true ∧ new.getLsbD 1 = true := by
  cases r <;> simp only [csrStore, reduceCtorEq] at h
  rcases tvecStore_cases installs new s with ⟨-, h2⟩ | ⟨h1, h3, h2⟩ | ⟨-, -, h2⟩ <;> rw [h2] at h
  · cases h
  · cases h; exact ⟨rfl, rfl, h1, h3⟩
  · cases h

/-- A next state of a writing CSR command is ILLEGAL's, or a store of the new value after the answer of the old. -/
theorem csrUpdate_next {sel : Selector} {installs : Bool} {newOf : Word → Word} {s t : State}
    (h : csrUpdate sel installs newOf s = .next t) :
    (Csr.ofSelector s.config sel = none ∧ t = s.answerIllegal) ∨
    (∃ r, Csr.ofSelector s.config sel = some r ∧
      csrStore installs r (newOf (csrRead s r)) (s.answerOk (csrRead s r)) = .next t) := by
  unfold csrUpdate at h
  split at h
  · rename_i hn; exact .inl ⟨hn, by simpa using h.symm⟩
  · rename_i r hr; exact .inr ⟨r, hr, h⟩

/-! ## Traps -/

/-- A target exists only where the dispatcher is installed and, in vectored mode, the table is aligned; it is the base, or
the slot of an interrupt. -/
theorem trapTarget_next {i : Bool} {code target : Word} {s : State} (h : trapTarget i code s = .next target) :
    s.tvecInstalled = true ∧
    ((s.mode = .direct ∧ target = s.base) ∨
     (s.mode = .vectored ∧ s.baseAligned = true ∧ i = false ∧ target = s.base) ∨
     (s.mode = .vectored ∧ s.baseAligned = true ∧ i = true ∧ code.toNat < s.config.vecSlots ∧
       target = truncXlen s.config.xlen (s.base + BitVec.ofNat 64 (s.config.vecStride * code.toNat)))) := by
  have hi : s.mode ≠ .uninstalled → s.tvecInstalled = true := by
    unfold State.mode; cases s.tvecInstalled <;> simp
  unfold trapTarget at h
  repeat' split at h
  all_goals simp_all

/-- A trap entry has a next state exactly where it has a target, and that state is the entered one. -/
theorem takeTrap_next {i : Bool} {code pc tval : Word} {s t : State} (h : takeTrap i code pc tval s = .next t) :
    ∃ target, trapTarget i code s = .next target ∧ t = s.enterTrap i code pc tval target := by
  unfold takeTrap at h
  split at h
  · rename_i target ht; exact ⟨target, ht, by simpa using h.symm⟩
  · cases h
  · cases h

/-! ## Inputs -/

/-- While the block does not wait, the next input is the head of the list. -/
theorem nextInput_awake (i : Input) (rest : List Input) : nextInput false (i :: rest) = some (i, rest) := by
  simp [nextInput]

/-- An input of another agent at the head is next, waiting or not. -/
theorem nextInput_other (w : Bool) {i : Input} (rest : List Input) (h : i.fromHart = false) :
    nextInput w (i :: rest) = some (i, rest) := by
  simp [nextInput, h]

/-- While the block waits, the inputs of the hart are passed over and kept. -/
theorem nextInput_held (held : List Input) {e : Input} (rest : List Input) (hh : ∀ i ∈ held, i.fromHart = true)
    (he : e.fromHart = false) : nextInput true (held ++ e :: rest) = some (e, held ++ rest) := by
  induction held with
  | nil => simp [nextInput, he]
  | cons i held ih =>
    have h1 : i.fromHart = true := hh i (by simp)
    have h2 := ih fun j hj => hh j (by simp [hj])
    simp [nextInput, h1, h2]

/-- While the block waits with inputs of the hart alone, none is next. -/
theorem nextInput_all_held {l : List Input} (h : ∀ i ∈ l, i.fromHart = true) : nextInput true l = none := by
  induction l with
  | nil => rfl
  | cons i l ih =>
    have h1 : i.fromHart = true := h i (by simp)
    simp [nextInput, h1, ih fun j hj => h j (by simp [hj])]

/-- The next input is one of the list, and those left are of the list. -/
theorem nextInput_mem {w : Bool} {l : List Input} {i : Input} {rest : List Input} (h : nextInput w l = some (i, rest)) :
    i ∈ l ∧ ∀ j ∈ rest, j ∈ l := by
  induction l generalizing i rest with
  | nil => cases h
  | cons a l ih =>
    unfold nextInput at h
    split at h
    · simp only [Option.map_eq_some_iff, Prod.mk.injEq, Prod.exists] at h
      obtain ⟨b, r, hb, rfl, rfl⟩ := h
      obtain ⟨h1, h2⟩ := ih hb
      exact ⟨by simp [h1], by simpa using fun j hj => .inr (h2 j hj)⟩
    · cases h
      exact ⟨by simp, fun j hj => by simp [hj]⟩

/-! ## The step -/

/-- A step of a state without a fault performs the next input, or does nothing where none may move. -/
theorem step_next {s t : State} (h : step s = .next t) :
    s.faultFlag = none ∧
    ((nextInput s.waiting s.inputs = none ∧ t = s) ∨
     (∃ i rest, nextInput s.waiting s.inputs = some (i, rest) ∧ perform i { s with inputs := rest } = .next t)) := by
  unfold step performNext at h
  split at h
  · cases h
  · rename_i hf
    refine ⟨hf, ?_⟩
    split at h
    · rename_i i rest hi; exact .inr ⟨i, rest, hi, h⟩
    · rename_i hn; exact .inl ⟨hn, by simpa using h.symm⟩

/-- The step at a state whose fault flag is clear and whose next input is known. -/
theorem step_perform {s : State} {i : Input} {rest : List Input} (hf : s.faultFlag = none)
    (hi : nextInput s.waiting s.inputs = some (i, rest)) : step s = perform i { s with inputs := rest } := by
  simp [step, performNext, hf, hi]

/-! ## Runs -/

theorem core_run_next (M : Host.Core) {s t : M.State} (n : Nat) (h : M.step s = .next t) :
    M.run (n + 1) s = M.run n t := by
  rw [Host.Core.run, h]

theorem core_run_fault (M : Host.Core) {s : M.State} {f : M.Fault} (n : Nat) (h : M.step s = .fault f) :
    M.run (n + 1) s = .fault f := by
  rw [Host.Core.run, h]

theorem core_run_refused (M : Host.Core) {s : M.State} {r : M.Refusal} (n : Nat) (h : M.step s = .refused r) :
    M.run (n + 1) s = .refused r := by
  rw [Host.Core.run, h]

/-- `runSteps` is the host's run of this core. -/
theorem runSteps_eq_core_run (n : Nat) (s : State) : Host.Core.run Sys2Proof.core n s = runSteps n s := by
  induction n generalizing s with
  | zero => exact rfl
  | succ n ih =>
    rw [runSteps]
    cases h : step s with
    | next t => exact (core_run_next Sys2Proof.core n h).trans (ih t)
    | fault f => exact core_run_fault Sys2Proof.core n h
    | refused r => exact core_run_refused Sys2Proof.core n h

@[simp] theorem runSteps_zero (s : State) : runSteps 0 s = .next s := rfl

/-- A run that begins with a step to `t` is the rest of the run from `t`. -/
theorem runSteps_succ {s t : State} (n : Nat) (h : step s = .next t) : runSteps (n + 1) s = runSteps n t := by
  rw [runSteps, h]

/-- An idle machine stays as it is. -/
theorem runSteps_idle {s : State} (n : Nat) (h : step s = .next s) : runSteps n s = .next s := by
  induction n with
  | zero => rfl
  | succ n ih => rw [runSteps_succ n h, ih]

end Sys2Proof.Machine
end

