-- ==== Sys2Proof/Laws/PerInstr.lean ====
section
/-! SUPPORT. Statements about every command, one lemma for each: the word of a command is a word of its row of the opcode
table (30_encoding.md R96). -/

namespace Sys2Proof.Laws

/-- The bits of `op`, which no selector reaches. -/
theorem selector_and_high (sel : Selector) (m : CommandWord) (h : m.setWidth 12 = 0) :
    sel.setWidth 32 &&& m = 0#32 := by
  ext i hi
  simp only [BitVec.getElem_and, BitVec.getElem_setWidth, BitVec.getElem_zero]
  by_cases h12 : i < 12
  · have hm : (m.setWidth 12).getLsbD i = false := by rw [h]; simp
    rw [BitVec.getLsbD_setWidth] at hm
    simp only [h12, decide_true, Bool.true_and] at hm
    rw [← BitVec.getLsbD_eq_getElem, hm, Bool.and_false]
  · rw [BitVec.getLsbD_of_ge _ _ (by omega), Bool.false_and]

/-- The word of a command with a selector and no immediate, under its row's mask, is its row's match. -/
theorem packWord_selector_row (op : BitVec 4) (sel : Selector) :
    packWord op 0 sel &&& 0xFFFFF000#32 = op.setWidth 32 <<< 28 := by
  have h1 := selector_and_high sel 0xFFFFF000#32 (by decide)
  have h2 : ∀ o : BitVec 4, (o.setWidth 32 <<< 28 ||| (0 : Imm5).setWidth 32 <<< 12 : BitVec 32) &&& 0xFFFFF000#32 =
      o.setWidth 32 <<< 28 := by decide
  have h3 : ∀ a b c : CommandWord, (a ||| b) &&& c = a &&& c ||| b &&& c := by
    intro a b c; ext i; simp [Bool.and_or_distrib_right]
  rw [packWord, h3, h1, h2]
  simp

/-- The word of an immediate command, under its row's mask, is its row's match. -/
theorem packWord_immediate_row (op : BitVec 4) (imm : Imm5) (sel : Selector) :
    packWord op imm sel &&& 0xFFFE0000#32 = op.setWidth 32 <<< 28 := by
  have h1 := selector_and_high sel 0xFFFE0000#32 (by decide)
  have h2 : ∀ o : BitVec 4, (o.setWidth 32 <<< 28 : BitVec 32) &&& 0xFFFE0000#32 = o.setWidth 32 <<< 28 := by decide
  have h4 : ∀ i : Imm5, (i.setWidth 32 <<< 12 : BitVec 32) &&& 0xFFFE0000#32 = 0 := by decide
  have h3 : ∀ a b c : CommandWord, (a ||| b) &&& c = a &&& c ||| b &&& c := by
    intro a b c; ext i; simp [Bool.and_or_distrib_right]
  rw [packWord, h3, h3, h1, h2, h4]
  simp

namespace EncodingMatchesRow

/-- The command's word is a word of its row (30_encoding.md R96). -/
def Statement (i : Instr) : Prop := encode i &&& rowMask i = rowMatch i

theorem csrRead (sel : Selector) : Statement (.csrRead sel) := packWord_selector_row 0x0 sel
theorem csrWrite (sel : Selector) : Statement (.csrWrite sel) := packWord_selector_row 0x1 sel
theorem csrSet (sel : Selector) : Statement (.csrSet sel) := packWord_selector_row 0x2 sel
theorem csrClear (sel : Selector) : Statement (.csrClear sel) := packWord_selector_row 0x3 sel
theorem csrWriteI (sel : Selector) (imm : Imm5) : Statement (.csrWriteI sel imm) := packWord_immediate_row 0x5 imm sel
theorem csrSetI (sel : Selector) (imm : Imm5) : Statement (.csrSetI sel imm) := packWord_immediate_row 0x6 imm sel
theorem csrClearI (sel : Selector) (imm : Imm5) : Statement (.csrClearI sel imm) := packWord_immediate_row 0x7 imm sel
theorem tmrRead (sel : Selector) : Statement (.tmrRead sel) := packWord_selector_row 0x8 sel
theorem tmrWrite (sel : Selector) : Statement (.tmrWrite sel) := packWord_selector_row 0x9 sel
theorem tmrRearm : Statement .tmrRearm := by unfold Statement; decide
theorem tmrConv : Statement .tmrConv := by unfold Statement; decide
theorem trapRet : Statement .trapRet := by unfold Statement; decide
theorem trapSvc : Statement .trapSvc := by unfold Statement; decide
theorem wait : Statement .wait := by unfold Statement; decide

end EncodingMatchesRow

end Sys2Proof.Laws
end

