-- ==== Sys2Proof/Tests/Slice0.lean ====
section
/-! SUPPORT. Tests on small states, and for every obligation with hypotheses a state and operands that meet them. Expected
words and values are those of 95_test_vectors.md, whose row each comment names. -/

open Sys2Proof Sys2Proof.Machine Sys2Proof.Spec

namespace Sys2Proof.Tests

/-! ## Helpers -/

/-- The parameters of 95_test_vectors.md: TIMER_HZ = 32768, a reset vector of 0x80000000 and the customary addresses. -/
def config (x : XLen) : Config where
  xlen := x
  timerHz := 32768
  resetVectorHigh := 0x20000000
  mtimeAddr := 0x0200BFF8
  mtimecmpAddr := 0x02004000
  msipAddr := 0x02000000

/-- The state right after reset at those parameters, with the compare register at its top so that no request is up. -/
def quiet (x : XLen) : State :=
  { State.reset with config := config x, mtimecmp := 0xFFFFFFFFFFFFFFFF, outputs := {} }

/-- Vectored mode with a table at 0x80000200, everything pending and enabled (95_test_vectors.md 2.5 row 9). -/
def busy : State :=
  { quiet .x32 with
    mstatus := { mie := true, mpie := false }, mie := { msie := true, mtie := true, meie := true }
    mtvec := 0x80000201, tvecInstalled := true, mtime := 500, mtimecmp := 400, msipIn := true, meipIn := true }

/-- The same in direct mode with a handler at 0x80000100. -/
def direct : State := { busy with mtvec := 0x80000100 }

/-- A field of the next state. -/
def field {α : Type} (f : State → α) : Result → Option α
  | .next t => some (f t)
  | .fault _ => none
  | .refused _ => none

/-- Why a step stops. -/
def stop : Result → Option (Fault ⊕ Refusal)
  | .next _ => none
  | .fault f => some (.inl f)
  | .refused r => some (.inr r)

/-- What a command answers. -/
def answer : Result → Option (Option Resp × Option Word) := field fun t => (t.outputs.resp, t.outputs.rdata)

/-! ## Well-formedness: one ill-formed term for each check -/

theorem test_wf_refuses_unknown_csr : (Instr.csrSet 0x340#12).wellFormed (config .x32) = false := by decide
theorem test_wf_refuses_unknown_timer : (Instr.tmrRead 0x004#12).wellFormed (config .x32) = false := by decide
theorem test_wf_refuses_counter_write : ∀ sel ∈ [0x000#12, 0x008#12, 0x009#12],
    (Instr.tmrWrite sel).wellFormed (config .x32) = false := by decide
theorem test_wf_accepts_neighbours : (Instr.csrSet 0x341#12).wellFormed (config .x32) = true ∧
    (Instr.tmrRead 0x00B#12).wellFormed (config .x32) = true ∧
    (Instr.tmrWrite 0x00A#12).wellFormed (config .x32) = true := by decide

/-! ## Decoding: words of 95_test_vectors.md 2.1 -/

theorem test_decode_csrRead : decode 0x00000341#32 = .ok (.csrRead 0x341#12) := by decide
theorem test_decode_csrWrite : decode 0x10000305#32 = .ok (.csrWrite 0x305#12) := by decide
theorem test_decode_csrSet : decode 0x20000304#32 = .ok (.csrSet 0x304#12) := by decide
theorem test_decode_csrClear : decode 0x30000304#32 = .ok (.csrClear 0x304#12) := by decide
theorem test_decode_csrWriteI : decode 0x50001305#32 = .ok (.csrWriteI 0x305#12 1#5) := by decide
theorem test_decode_csrSetI : decode 0x6001F304#32 = .ok (.csrSetI 0x304#12 31#5) := by decide
theorem test_decode_csrClearI : decode 0x70008300#32 = .ok (.csrClearI 0x300#12 8#5) := by decide
theorem test_decode_tmrRead : decode 0x80000009#32 = .ok (.tmrRead 0x009#12) := by decide
theorem test_decode_tmrWrite : decode 0x9000000B#32 = .ok (.tmrWrite 0x00B#12) := by decide
theorem test_decode_tmrRearm : decode 0xA0000000#32 = .ok .tmrRearm := by decide
theorem test_decode_tmrConv : decode 0xB0000000#32 = .ok .tmrConv := by decide
theorem test_decode_trapRet : decode 0xC0000000#32 = .ok .trapRet := by decide
theorem test_decode_trapSvc : decode 0xD0000000#32 = .ok .trapSvc := by decide
theorem test_decode_wait : decode 0xE0000000#32 = .ok .wait := by decide
theorem test_decode_reserved : decode 0x40000300#32 = .error .reservedOp ∧ decode 0xF0000000#32 = .error .reservedOp ∧
    decode 0xFFFFFFFF#32 = .error .zeroField ∧ decode 0x00020300#32 = .error .zeroField ∧
    decode 0x08000300#32 = .error .zeroField ∧ decode 0x00001300#32 = .error .immediateField ∧
    decode 0xD0001000#32 = .error .immediateField ∧ decode 0xC0000001#32 = .error .selectorField := by decide
theorem test_decodeTableWord : decodeTableWord 32 0x6001F304 = some (.csrSetI 0x304#12 31#5) ∧
    decodeTableWord 32 0x40000300 = none := by decide

/-! ## The step runs a placed command -/

theorem test_fetch_word_runs_it : answer (step (State.reset.withFetchWord 32 0xE0000000)) = some (some .ok, some 0) := by
  decide
theorem test_fetch_word_unknown_selector :
    answer (step (State.reset.withFetchWord 32 0x00000000)) = some (some .illegal, some 0) := by decide

/-! ## One command each -/

/-- 2.2 row 1. -/
theorem test_csrRead_status :
    answer (exec (.csrRead 0x300#12) { quiet .x32 with mstatus := { mie := true, mpie := false } }) =
      some (some .ok, some 0x1808) := by decide
/-- 2.2 row 23. -/
theorem test_csrRead_pending :
    answer (exec (.csrRead 0x344#12) { quiet .x32 with mtime := 500, mtimecmp := 400, meipIn := true }) =
      some (some .ok, some 0x880) := by decide
/-- 2.2 row 9. -/
theorem test_csrWrite_enable :
    field (fun t => (t.mie, t.outputs.rdata)) (exec (.csrWrite 0x304#12) { quiet .x32 with wdata := 0xFFFFFFFF }) =
      some ({ msie := true, mtie := true, meie := true }, some 0) := by decide
/-- 2.2 row 27. -/
theorem test_csrWrite_low_half :
    field (·.mtval) (exec (.csrWrite 0x343#12) { quiet .x32 with wdata := 0xAAAAAAAA55555555 }) =
      some 0x55555555 := by decide
/-- 2.2 row 7. -/
theorem test_csrSet_enable :
    field (fun t => (csrRead t .mie, t.outputs.rdata))
      (exec (.csrSet 0x304#12) { quiet .x32 with mie := { msie := true, mtie := false, meie := false }, wdata := 0x80 }) =
      some (0x88, some 0x8) := by decide
/-- 2.2 row 8. -/
theorem test_csrClear_enable :
    field (fun t => (csrRead t .mie, t.outputs.rdata)) (exec (.csrClear 0x304#12) { busy with wdata := 0x80 }) =
      some (0x808, some 0x888) := by decide
/-- 2.2 row 25. -/
theorem test_csrClear_pending :
    answer (exec (.csrClear 0x344#12)
      { quiet .x32 with mtime := 500, mtimecmp := 400, meipIn := true, wdata := 0x880 }) =
      some (some .ok, some 0x880) := by decide
/-- 2.1: `CSR_WRITEI mtvec, 1` is vectored with base 0. -/
theorem test_csrWriteI_installs :
    field (fun t => (t.mode, t.base)) (exec (.csrWriteI 0x305#12 1#5) (quiet .x32)) = some (.vectored, 0) := by decide
/-- 2.2 row 12. -/
theorem test_csrSetI_enable :
    field (csrRead · .mie) (exec (.csrSetI 0x304#12 31#5) (quiet .x32)) = some 8 := by decide
/-- 2.2 row 19. -/
theorem test_csrSetI_reserved : stop (exec (.csrSetI 0x305#12 2#5) direct) = some (.inr .reservedTvecMode) := by
  decide
/-- 2.2 row 17. -/
theorem test_csrClearI_switches_mode :
    field (fun t => (t.mtvec, t.mode, t.outputs.rdata)) (exec (.csrClearI 0x305#12 1#5) busy) =
      some (0x80000200, .direct, some 0x80000201) := by decide
/-- 2.3 rows 2 and 3. -/
theorem test_tmrRead_halves :
    answer (exec (.tmrRead 0x008#12) { quiet .x32 with mtime := 0x1FFFFFFFF }) = some (some .ok, some 0xFFFFFFFF) ∧
    answer (exec (.tmrRead 0x009#12) { quiet .x32 with mtime := 0x1FFFFFFFF }) = some (some .ok, some 1) := by decide
/-- 2.3 row 22. -/
theorem test_tmrWrite_low_half :
    field (·.mtimecmp)
      (exec (.tmrWrite 0x00A#12) { quiet .x32 with mtimecmp := 0x100001000, wdata := 0xDEADBEEF00000100 }) =
      some 0x100000100 := by decide
/-- 2.3 row 24. -/
theorem test_tmrWrite_counter :
    field (fun t => (t.outputs.resp, t.mtime)) (exec (.tmrWrite 0x000#12) { quiet .x32 with mtime := 7 }) =
      some (some .illegal, 7) := by decide
/-- 2.3 row 11. -/
theorem test_tmrRearm :
    field (fun t => (t.lastTime, t.mtimecmp, t.mtip)) (exec .tmrRearm { busy with mtime := 33770, period := 32768 }) =
      some (33770, 66538, false) := by decide
/-- 2.3 row 13. -/
theorem test_tmrRearm_wraps :
    field (fun t => (t.mtimecmp, t.mtip)) (exec .tmrRearm { busy with mtime := 0xFFFFFFFFFFFFFF00, period := 0x200 }) =
      some (0x100, true) := by decide
/-- 2.3 rows 15 and 16. -/
theorem test_tmrConv_rounds_down :
    answer (exec .tmrConv { quiet .x32 with wdata := 30 }) = some (some .ok, some 0) ∧
    answer (exec .tmrConv { quiet .x32 with wdata := 31 }) = some (some .ok, some 1) := by decide
/-- 2.3 row 21. -/
theorem test_tmrConv_unbounded :
    answer (exec .tmrConv { quiet .x32 with wdata := 0xFFFFFFFFFFFFFFFF }) =
      some (some .ok, some 0x08637BD05AF6C69B) := by decide
/-- 2.4 row 12. -/
theorem test_trapRet :
    field (fun t => (t.mstatus, t.outputs.nextPc)) (exec .trapRet { quiet .x32 with mepc := 0x80001004 }) =
      some ({ mie := false, mpie := true }, some 0x80001004) := by decide
/-- 2.4 row 7. -/
theorem test_trapSvc_wraps :
    field (fun t => (t.mepc, t.outputs.rdata)) (exec .trapSvc { quiet .x32 with mcause := 11, mepc := 0xFFFFFFFC }) =
      some (0, some 4) := by decide
/-- 2.4 rows 3 and 10. -/
theorem test_trapSvc_interrupts :
    field (fun t => (t.mepc, t.outputs.rdata))
      (exec .trapSvc { quiet .x32 with mcause := 0x8000000B, mepc := 0x80001000 }) = some (0x80001000, some 3) ∧
    answer (exec .trapSvc { quiet .x64 with mcause := 0x80000007 }) = some (some .ok, some 4) := by decide
/-- 2.4 rows 14 and 16. -/
theorem test_wait_sleeps :
    field (·.waiting) (exec .wait { quiet .x32 with mie := { msie := false, mtie := true, meie := false } }) =
      some true ∧
    field (·.waiting) (exec .wait { quiet .x32 with mtimecmp := 0 }) = some true := by decide
/-- 2.4 row 15. -/
theorem test_wait_falls_through :
    field (·.waiting) (exec .wait
      { quiet .x32 with mtimecmp := 0, mie := { msie := false, mtie := true, meie := false } }) = some false := by decide

/-! ## Events -/

/-- 2.5 row 2. -/
theorem test_exc :
    field (fun t => (t.mepc, t.mcause, t.mtval, t.mstatus, t.outputs.nextPc))
      (perform (.exc 2 0x80001004 0xFFFFFFFF) { direct with mstatus := { mie := false, mpie := true } }) =
      some (0x80001004, 2, 0xFFFFFFFF, { mie := false, mpie := false }, some 0x80000100) := by decide
/-- 2.5 row 9. -/
theorem test_poll_external_first :
    field (fun t => (t.mcause, t.outputs.nextPc)) (perform (.irqPoll 0x80000020) busy) =
      some (0x8000000B, some 0x8000022C) := by decide
/-- 2.5 row 12. -/
theorem test_poll_64 :
    field (fun t => (t.mcause, t.outputs.nextPc))
      (perform (.irqPoll 0x80000014) { direct with config := config .x64, msipIn := false, meipIn := false }) =
      some (0x8000000000000007, some 0x80000100) := by decide
/-- 2.4, routing: the table at 0xFFFFFFC0, and a table that is not aligned. -/
theorem test_routing_edges :
    field (·.outputs.nextPc) (perform (.irqPoll 4) { busy with mtvec := 0xFFFFFFC1 }) = some (some 0xFFFFFFEC) ∧
    stop (perform (.irqPoll 4) { busy with mtvec := 0x80000211 }) = some (.inl .misalignedVectorBase) := by decide
/-- 2.4 rows 17 and 18. -/
theorem test_pin :
    field (·.waiting) (perform (.pin false true)
      { quiet .x32 with waiting := true, mie := { msie := false, mtie := false, meie := true } }) = some false ∧
    field (·.waiting) (perform (.pin true true)
      { quiet .x32 with waiting := true, mie := { msie := false, mtie := true, meie := false } }) = some true := by decide
/-- 2.3 row 5. -/
theorem test_tick_wraps : field (·.mtime) (perform .tick { quiet .x32 with mtime := 0xFFFFFFFFFFFFFFFF }) = some 0 := by
  decide
/-- 2.5 row 13. -/
theorem test_reset_event :
    field (fun t => (t.mstatus.mie, csrRead t .mie, t.tvecInstalled, t.outputs.nextPc)) (perform .reset busy) =
      some (false, 0, false, some 0x80000000) := by decide
/-- 20_memory.md R61: an 8-byte load of the counter, and a 4-byte store of the high half of the compare register. -/
theorem test_mapped_access :
    answer (perform (.load 0x0200BFF8 .bytes8) busy) = some (some .ok, some 500) ∧
    field (·.mtimecmp) (perform (.store 0x02004004 .bytes4 2) busy) = some 0x200000190 := by decide
/-- 30_encoding.md R90, R91. -/
theorem test_driver_text :
    expandCall (config .x32) .enableTimer = (.csrSet 0x304#12, 0x80) ∧
    expandCall (config .x32) .disableAll = (.csrClearI 0x300#12 8#5, 0) ∧
    inputText (config .x32) (callInput (config .x32) (.setBits .mstatus 8)) = some "CSR_SETI mstatus, 8" ∧
    environmentCallInput (config .x32) 4 = .exc 11 4 0 := by decide
/-- 00_scope.md R8: the numbers are parameters; here the enable register is at 0x7C4, and the timer's bit is 5. -/
theorem test_numbers_are_parameters :
    let s := { busy with config := { config .x32 with csrIe := 0x7C4#12, irqMti := 5, directAlign := 1024 } }
    answer (exec (.csrRead 0x7C4#12) s) = some (some .ok, some 0x828) ∧
    answer (exec (.csrRead 0x304#12) s) = some (some .illegal, some 0) ∧ s.base = 0x80000000 := by decide

/-! ## Witnesses: for each obligation with hypotheses, a state and operands that meet all of them, at the boundaries of
each clause -/

/-- A state whose next inputs are the given ones. -/
def given (s : State) (inputs : List Input) : State := { s with inputs := inputs }

theorem quiet_legal : State.Legal (quiet .x32) where
  config :=
    { selectors := Decided.selectors rfl
      sources := by intro k j; cases k <;> cases j <;> decide
      sourceBit := by intro k; cases k <;> decide
      statusBits := by decide
      statusBit := by decide
      prio := by intro k; cases k <;> decide
      slots := by intro k; cases k <;> decide
      granule := by decide
      ilen := rfl
      stride := rfl
      hz := by decide
      unit := by decide }
  mtvecFits := by unfold fitsXlen; decide
  mepcFits := by unfold fitsXlen; decide
  mcauseFits := by unfold fitsXlen; decide
  mtvalFits := by unfold fitsXlen; decide
  mepcAligned := by decide
  tvecReserved := by decide
  nextPcFits := by intro p h; cases h
  nextPcAligned := by intro p h; cases h

theorem witness_EncodeOfDecodeIsTheWord : decode 0xE0000000#32 = .ok .wait ∧ decode 0x7001FFFF#32 =
    .ok (.csrClearI 0xFFF#12 31#5) := by decide

theorem witness_ReservedWordsAreIllegal :
    (∀ n ∈ [0x00000FFF, 0x30000FFF, 0x5001FFFF, 0x90000FFF, 0xE0000000], ¬ Reserved (BitVec.ofNat 32 n).toNat) ∧
    Ready (given (quiet .x32) [.command 0x40000000#32 1]) ∧
    (given (quiet .x32) [.command 0x40000000#32 1]).inputs = .command 0x40000000#32 1 :: [] ∧
    ∀ n ∈ [0x40000000, 0xF0000000, 0x00020000, 0x58000000, 0x80001000, 0xA0000001, 0xE0000800],
      Reserved (BitVec.ofNat 32 n).toNat := by decide

theorem witness_MatchedRowDecodesToItsCommand :
    ∀ row ∈ rows, (BitVec.ofNat 32 row.2.1).toNat &&& row.1 = row.2.1 ∧
      (BitVec.ofNat 32 (row.2.1 + (0xFFFFFFFF - row.1))).toNat &&& row.1 = row.2.1 := by decide

theorem witness_StepRunsTheDecodedCommand :
    Ready (given (quiet .x32) [.command 0xE0000000#32 1, .tick]) ∧
    (given (quiet .x32) [.command 0xE0000000#32 1, .tick]).inputs = .command 0xE0000000#32 1 :: [.tick] ∧
    decode 0xE0000000#32 = .ok .wait := by decide

/-- A selector next to a CSR names none. -/
theorem witness_no_csr : (∀ r, 0x340#12 ≠ csrNumber r) ∧ (∀ r, 0x000#12 ≠ csrNumber r) := by
  refine ⟨?_, ?_⟩ <;> intro r <;> cases r <;> decide

theorem witness_CsrReadAnswersTheRegister : Decided busy.config ∧ ∀ r, 0x345#12 ≠ csrNumber r :=
  ⟨rfl, by intro r; cases r <;> decide⟩

theorem witness_ReadsFollowTheConfiguredNumbers : LegalConfig (quiet .x32).config := quiet_legal.config

theorem witness_CsrWriteStoresTheOperand : Decided (quiet .x32).config ∧
    ¬ refusesTvec true .mtvec (operand { quiet .x32 with wdata := 1 }) { quiet .x32 with wdata := 1 } ∧
    ¬ refusesTvec true .mie (operand { quiet .x32 with wdata := 2 }) { quiet .x32 with wdata := 2 } ∧
    refusesTvec true .mtvec (operand { quiet .x32 with wdata := 2 }) { quiet .x32 with wdata := 2 } := by decide

theorem witness_CsrSetStoresTheUnion : Decided direct.config ∧
    ¬ refusesTvec false .mtvec (csrValue direct .mtvec ||| operand direct) direct ∧
    ¬ refusesTvec false .mtvec (csrValue (quiet .x32) .mtvec ||| 2) (quiet .x32) ∧
    refusesTvec false .mtvec (csrValue direct .mtvec ||| operand { direct with wdata := 2 }) direct := by decide

theorem witness_CsrClearStoresTheDifference :
    Decided busy.config ∧ ¬ refusesTvec false .mtvec (andNot (csrValue busy .mtvec) 1) busy ∧
    State.Legal (quiet .x32) := ⟨rfl, by decide, quiet_legal⟩

/-- The refusing state holds the reserved bit, which no run reaches. -/
theorem witness_ClearRefusesOnlyAReservedBitAlreadySet :
    let s := { busy with mtvec := 2, wdata := 1 }
    Decided s.config ∧ s.tvecInstalled = true ∧ (csrValue s .mtvec).testBit 1 = true ∧
      (operand s).testBit 1 = false ∧ (29#5).toNat.testBit 1 = false ∧ (31#5).toNat.testBit 1 = true := by decide

theorem witness_CsrWriteImmediateStoresTheImmediate : Decided (quiet .x32).config ∧
    ¬ refusesTvec true .mtvec (1#5).toNat (quiet .x32) ∧ ¬ refusesTvec true .mtvec (29#5).toNat (quiet .x32) ∧
    refusesTvec true .mtvec (31#5).toNat (quiet .x32) := by decide

theorem witness_CsrSetImmediateStoresTheUnion : Decided direct.config ∧
    ¬ refusesTvec false .mtvec (csrValue direct .mtvec ||| (1#5).toNat) direct ∧
    refusesTvec false .mtvec (csrValue direct .mtvec ||| (31#5).toNat) direct := by decide

theorem witness_CsrClearImmediateStoresTheDifference :
    Decided busy.config ∧ ¬ refusesTvec false .mtvec (andNot (csrValue busy .mtvec) (31#5).toNat) busy ∧
    State.Legal (quiet .x32) := ⟨rfl, by decide, quiet_legal⟩

theorem witness_CsrCommandsNeverFail : Decided direct.config ∧ ReservedBitClear direct ∧
    Instr.csrClearI (csrNumber .mip) 31#5 ∈ csrCommands (csrNumber .mip) 31#5 ∧
    newValue direct (csrValue direct .mtvec) (.csrWriteI (csrNumber .mtvec) 2#5) = some (true, 2) ∧
    refusesTvec true .mtvec 2 direct ∧
    newValue direct (csrValue direct .mtvec) (.csrSetI (csrNumber .mtvec) 1#5) = some (false, 0x80000101) ∧
    ¬ refusesTvec false .mtvec 0x80000101 direct := by decide

theorem witness_CsrCommandsNeverFail_hardwired :
    hardwiredBit .mstatus 11 ∧ hardwiredBit .mie 4 ∧ hardwiredBit .mepc 1 ∧ hardwiredBit .mip 3 := by
  simp [hardwiredBit]

theorem witness_SetAndClearTouchOnlyTheirMask : Decided direct.config ∧
    (¬ refusesTvec false .mtvec (csrValue direct .mtvec ||| operand { direct with wdata := 1 }) direct ∧
      (operand { direct with wdata := 1 }).testBit 0 = true ∧ (operand { direct with wdata := 1 }).testBit 1 = false) ∧
    (¬ refusesTvec false .mstatus (csrValue direct .mstatus ||| (8#5).toNat) direct ∧ (8#5).toNat.testBit 3 = true) ∧
    ¬ refusesTvec false .mtvec (andNot (csrValue direct .mtvec) (31#5).toNat) direct ∧
    writableBit direct .mtvec 0 ∧ writableBit direct .mtvec 31 ∧ writableBit direct .mepc 2 ∧
    writableBit direct .mstatus 7 ∧ writableBit direct .mie 11 := by
  refine ⟨rfl, by decide, by decide, by decide, ?_⟩
  simp only [writableBit]
  decide

/-- A set, an immediate clear, a tick, a level change, a poll and an exception. -/
def mixedOps : List Input :=
  [.command 0x20000304#32 0x80, .command 0x70008304#32 0, .tick, .pin true true, .irqPoll 8, .exc 11 8 0]

theorem witness_LastSetOrClearOfABitWins :
    Ready (given busy mixedOps) ∧ Decided (given busy mixedOps).config ∧ Enterable (given busy mixedOps) ∧
    11 < (given busy mixedOps).config.vecSlots ∧
    (∀ i ∈ mixedOps, (enableOp i).isSome = true ∨ EventOf i) ∧ (given busy mixedOps).inputs = mixedOps ++ [] := by
  refine ⟨by decide, rfl, by decide, by decide, ?_, by decide⟩
  intro i hi
  simp only [mixedOps, List.mem_cons, List.not_mem_nil, or_false] at hi
  rcases hi with rfl | rfl | rfl | rfl | rfl | rfl
  · exact .inl (by decide)
  · exact .inl (by decide)
  · exact .inr (.inl rfl)
  · exact .inr (.inr (.inl ⟨true, true, rfl⟩))
  · exact .inr (.inr (.inr (.inl ⟨8, rfl, by decide⟩)))
  · exact .inr (.inr (.inr (.inr ⟨11, 8, 0, rfl, by decide⟩)))

theorem witness_ImmediateFormsEqualRegisterForms :
    (∃ t, exec (.csrSet 0x300#12) { direct with wdata := word (8#5).toNat } = .next t) ∧
    exec (.csrWrite 0x305#12) { direct with wdata := word (2#5).toNat } = .refused .reservedTvecMode :=
  ⟨⟨_, rfl⟩, rfl⟩

theorem witness_NarrowMachineIgnoresTheHighHalf : Decided direct.config ∧
    direct.config.xlen = .x32 ∧ (0xFFFFFFFF00000002 : Word).toNat % 2 ^ 32 = (2 : Word).toNat % 2 ^ 32 ∧
    (∃ t, exec (.csrRead 0x305#12) { direct with wdata := 2 } = .next t) ∧
    exec (.csrWrite 0x305#12) { direct with wdata := 2 } = .refused .reservedTvecMode :=
  ⟨rfl, rfl, by decide, ⟨_, rfl⟩, rfl⟩

theorem witness_OnlyFullWritesInstallTheDispatcher : Decided (quiet .x32).config ∧
    (operand { quiet .x32 with wdata := 0x80000201 }).testBit 1 = false ∧ (29#5).toNat.testBit 1 = false ∧
    (quiet .x32).tvecInstalled = false ∧ direct.tvecInstalled = true ∧
    (csrValue direct .mtvec ||| operand { direct with wdata := 1 }).testBit 1 = false ∧
    (csrValue direct .mtvec ||| (1#5).toNat).testBit 1 = false ∧
    (andNot (csrValue busy .mtvec) (operand { busy with wdata := 1 })).testBit 1 = false ∧
    (andNot (csrValue busy .mtvec) (31#5).toNat).testBit 1 = false := by decide

theorem witness_IllegalExactlyWhenNoRegisterIsNamed :
    (Instr.csrRead 0x340#12).wellFormed (config .x32) = false ∧ (Instr.tmrWrite 0x009#12).wellFormed (config .x32) = false ∧
    (∃ t, exec (.tmrWrite 0x00B#12) busy = .next t) ∧ (Instr.tmrWrite 0x00B#12).wellFormed (config .x32) = true :=
  ⟨by decide, by decide, ⟨_, rfl⟩, by decide⟩

theorem witness_TimerReadAnswersTheRegister : (∀ r, 0x004#12 ≠ timerNumber r) ∧ (∀ r, 0x00C#12 ≠ timerNumber r) := by
  refine ⟨?_, ?_⟩ <;> intro r <;> cases r <;> decide

theorem witness_TimerWriteStoresTheOperand :
    (0x000#12).toNat ∉ [1, 2, 3, 10, 11] ∧ (0x008#12).toNat ∉ [1, 2, 3, 10, 11] ∧
    (0x00C#12).toNat ∉ [1, 2, 3, 10, 11] := by decide

theorem witness_TickCountsAndMayWake :
    (given { busy with waiting := true } [.tick]).faultFlag = none ∧
    (given { busy with waiting := true } [.tick]).inputs = .tick :: [] := by decide

theorem witness_TimerRequestIsALevel : Decided busy.config ∧
    (∃ t, exec (.csrRead 0x344#12) busy = .next t) ∧ Instr.csrClear 0x344#12 ∈ csrCommands 0x344#12 0#5 :=
  ⟨rfl, ⟨_, rfl⟩, by decide⟩

theorem witness_ServiceStepsOverOnlyTheEnvironmentCall : Decided busy.config := rfl

theorem witness_TicksReachTheDeadlineExactly :
    let s := given { busy with waiting := true, mtime := 0xFFFFFFFFFFFFFFFC } [.tick, .tick, .tick, .irqPoll 8]
    s.faultFlag = none ∧ s.inputs = List.replicate 3 .tick ++ [.irqPoll 8] ∧ s.mtime.toNat + 3 < 2 ^ 64 := by decide

theorem witness_WaitingHoldsTheHart :
    (given { busy with waiting := true } [.irqPoll 0, .command 0 0, .tick]).faultFlag = none ∧
    (given { busy with waiting := true } [.irqPoll 0, .command 0 0, .tick]).waiting = true ∧
    (given { busy with waiting := true } [.irqPoll 0, .command 0 0, .tick]).inputs =
      [.irqPoll 0, .command 0 0] ++ .tick :: [] ∧
    (∀ i ∈ [Input.irqPoll 0, .command 0 0], Input.fromHart i = true) ∧ Input.fromHart .tick = false := by decide

theorem witness_HaltWithoutEnablesIsForever :
    Halted (given { quiet .x32 with waiting := true } [.tick, .pin true true, .irqPoll 0]) := by
  unfold Halted
  decide

theorem witness_ExceptionEntersTheTrap :
    Ready (given busy [.exc 11 0x80001000 0]) ∧
    (given busy [.exc 11 0x80001000 0]).inputs = .exc 11 0x80001000 0 :: [] ∧
    (0x80001000 : Word).toNat % 4 = 0 ∧ (11 : Word).toNat < top busy ∧ (0x7FFFFFFF : Word).toNat < top busy ∧
    (0x80001000 : Word).toNat < wordSize busy ∧ (0 : Word).toNat < wordSize busy ∧
    (given busy [.exc 11 0x80001001 0]).inputs = .exc 11 0x80001001 0 :: [] ∧
    (0x80001001 : Word).toNat % 4 ≠ 0 ∧ (0x80001003 : Word).toNat % 4 ≠ 0 := by decide

theorem witness_PollTakesTheFirstDeliverable : Decided busy.config ∧
    Ready (given busy [.irqPoll 8]) ∧ (given busy [.irqPoll 8]).inputs = .irqPoll 8 :: [] ∧ (8 : Word).toNat % 4 = 0 ∧
    (8 : Word).toNat < wordSize busy ∧ (9 : Word).toNat % 4 ≠ 0 := by decide

theorem witness_PollTakesTheFirstDeliverable_first :
    busy.config.irqPrio = [] ++ .external :: [.software, .timer] ∧ busy.mstatus.mie = true ∧
    (pendEn busy).testBit (causeNumber .external) = true := by decide

theorem witness_PollTakesTheFirstDeliverable_last :
    let s : State := { busy with msipIn := false, meipIn := false }
    s.config.irqPrio = [.external, .software] ++ .timer :: [] ∧ s.mstatus.mie = true ∧
    (pendEn s).testBit (causeNumber .timer) = true ∧
    ∀ j ∈ [IrqSource.external, .software], (pendEn s).testBit (causeNumber j) = false := by decide

theorem witness_PollTakesTheFirstDeliverable_none :
    (quiet .x32).mstatus.mie = false ∧ pendEn { quiet .x32 with mstatus := { mie := true, mpie := true } } = 0 := by decide

theorem witness_ExternalThenSoftwareThenTimer :
    ∀ s ∈ [busy, { busy with meipIn := false }, { busy with meipIn := false, msipIn := false }],
      Ready (given s [.irqPoll 8]) ∧ (given s [.irqPoll 8]).inputs = .irqPoll 8 :: [] ∧ (8 : Word).toNat % 4 = 0 ∧
      Decided s.config ∧ s.config.irqPrio = [.external, .software, .timer] ∧ Enterable s ∧ 11 < s.config.vecSlots ∧
      s.mstatus.mie = true ∧ pendEn s ≠ 0 := by decide

theorem witness_RoutingTable : Decided busy.config ∧
    Enterable direct ∧ ¬ vectored direct ∧ Enterable busy ∧ vectored busy ∧ busy.config.vecStride = 4 ∧
    busy.config.vecSlots = 16 ∧ (quiet .x32).tvecInstalled = false ∧ (15 : Word).toNat < busy.config.vecSlots ∧
    busy.config.vecSlots ≤ (16 : Word).toNat := by decide

theorem witness_AlignedTableAddsOrOrsAlike :
    Enterable busy ∧ vectored busy ∧ busy.config.vecStride = 4 ∧ busy.config.vecSlots = 16 ∧
    busy.config.vecAlign = 64 ∧ (15 : Word).toNat < 16 := by decide

theorem witness_TrapsOnlyFromExceptionAndPoll :
    (∃ t, perform (.exc 11 0 0) direct = .next t ∧ t.outputs.trapTaken = some true) ∧
    (∃ t, perform (.irqPoll 0) busy = .next t ∧ t.outputs.trapTaken = some true) := ⟨⟨_, rfl, rfl⟩, ⟨_, rfl, rfl⟩⟩

theorem witness_FaultsOnlyAtTrapEntry :
    (quiet .x32).faultFlag = none ∧
    step (given (quiet .x32) [.exc 11 0 0]) = .fault .trapWhileUninstalled ∧
    step (given { busy with mtvec := 0x80000211 } [.irqPoll 0]) = .fault .misalignedVectorBase := ⟨rfl, rfl, rfl⟩

theorem witness_ReturnUndoesEntry :
    (0x80001000 : Word).toNat % 4 = 0 ∧ (0x80001000 : Word).toNat < wordSize busy ∧
    (∃ t, Machine.takeTrap true 7 0x80001000 0 busy = .next t) := ⟨by decide, by decide, ⟨_, rfl⟩⟩

theorem witness_EnvironmentCallResumesAtTheNextInstruction :
    let s := given busy [.exc 11 0xFFFFFFFC 0, .command trapSvcWord 0, .command trapRetWord 0, .tick]
    Ready s ∧ Decided s.config ∧ Enterable s ∧ s.config.ilenBytes = 4 ∧ (0xFFFFFFFC : Word).toNat % 4 = 0 ∧
    (0xFFFFFFFC : Word).toNat < wordSize s ∧
    s.inputs = .exc 11 0xFFFFFFFC 0 :: .command trapSvcWord 0 :: .command trapRetWord 0 :: [.tick] := by decide

theorem witness_SimultaneousInterruptsUseTheirOwnSlots :
    let s := given busy [.irqPoll 8, .irqPoll 0x80000200, .pin false false, .command trapRetWord 0, .irqPoll 8]
    Ready s ∧ Decided s.config ∧ Enterable s ∧ vectored s ∧ s.config.irqPrio = [.external, .software, .timer] ∧ s.config.vecStride = 4 ∧
    11 < s.config.vecSlots ∧ (8 : Word).toNat % 4 = 0 ∧ (8 : Word).toNat < wordSize s ∧
    (0x80000200 : Word).toNat % 4 = 0 ∧ s.mstatus.mie = true ∧ s.mie.meie = true ∧ s.mie.mtie = true ∧
    s.meipIn = true ∧ mtip s = 1 ∧
    s.inputs = .irqPoll 8 :: .irqPoll 0x80000200 :: .pin false false :: .command trapRetWord 0 :: .irqPoll 8 :: [] := by
  decide

theorem witness_OneDeadlineGivesOneInterrupt :
    let s := given { busy with msipIn := false, meipIn := false, period := 32768 }
      [.irqPoll 8, .command trapSvcWord 0, .command rearmWord 0, .command trapRetWord 0, .irqPoll 8]
    Ready s ∧ Decided s.config ∧ Enterable s ∧ 7 < s.config.vecSlots ∧ IrqSource.timer ∈ s.config.irqPrio ∧ (8 : Word).toNat % 4 = 0 ∧
    (8 : Word).toNat < wordSize s ∧ s.mstatus.mie = true ∧ pendEn s = 2 ^ 7 ∧ s.period.toNat ≠ 0 ∧
    s.mtime.toNat + s.period.toNat < 2 ^ 64 ∧
    s.inputs = .irqPoll 8 :: .command trapSvcWord 0 :: .command rearmWord 0 :: .command trapRetWord 0 ::
      .irqPoll 8 :: [] := by decide

theorem witness_NoPreemptionWithTheEnableClear :
    Unpreempted (given { busy with mstatus := { mie := false, mpie := true } } [.irqPoll 8, .tick, .pin true true]) := by
  refine ⟨rfl, rfl, by decide, ?_⟩
  intro i hi
  simp only [given, List.mem_cons, List.not_mem_nil, or_false] at hi
  rcases hi with rfl | rfl | rfl
  · exact .inr (.inr ⟨8, rfl, by decide⟩)
  · exact .inl rfl
  · exact .inr (.inl ⟨true, true, rfl⟩)

theorem witness_PinDrivesTheLevels :
    (given { busy with waiting := true } [.pin false true]).faultFlag = none ∧
    (given { busy with waiting := true } [.pin false true]).inputs = .pin false true :: [] := by decide

theorem witness_ResetEventClearsEnablesAndUninstalls : Decided busy.config ∧
    (given busy [.reset]).faultFlag = none ∧ (given busy [.reset]).inputs = .reset :: [] := by decide

theorem witness_EveryStepKeepsTheStateLegal :
    State.Legal (quiet .x32) ∧ ∃ t, step (quiet .x32) = .next t := ⟨quiet_legal, ⟨_, rfl⟩⟩

theorem witness_InstalledUntilReset :
    ∃ t, step (given busy [.reset]) = .next t ∧ (given busy [.reset]).tvecInstalled = true ∧
      t.tvecInstalled = false := ⟨_, rfl, rfl, rfl⟩

theorem witness_CounterChangesOnlyByTickAndReset :
    ∃ t, step (given busy [.tick]) = .next t ∧ t.mtime ≠ busy.mtime := ⟨_, rfl, by decide⟩

theorem witness_EnablesChangeOnlyByCommand :
    (∃ t, step (given busy [.command 0x30000304#32 0x80]) = .next t ∧ t.mie ≠ busy.mie) ∧
    (∃ t, step (given busy [.reset]) = .next t ∧ t.mie ≠ busy.mie) := ⟨⟨_, rfl, by decide⟩, ⟨_, rfl, by decide⟩⟩

theorem witness_EachAgentWritesOnlyItsOwnState :
    ∀ i ∈ [Input.command 0xE0000000#32 0, .load 0x0200BFF8 .bytes8, .store 0x02004000 .bytes8 1, .exc 2 0 0, .irqPoll 0,
      .tick, .pin true true, .reset], ∃ t, perform i busy = .next t := by
  intro i hi
  simp only [List.mem_cons, List.not_mem_nil, or_false] at hi
  rcases hi with rfl | rfl | rfl | rfl | rfl | rfl | rfl | rfl <;> exact ⟨_, rfl⟩

theorem witness_FaultFlagIsSticky :
    (busy.raiseFlag .misalignedVectorBase).faultFlag = some .misalignedVectorBase ∧
    step (given (quiet .x32) [.exc 11 0 0]) = .fault .trapWhileUninstalled ∧
    (∃ t, perform .reset busy = .next t) := ⟨rfl, rfl, ⟨_, rfl⟩⟩

theorem witness_MappedAccessesAreTimerCommands :
    Ready busy ∧ WindowsApart busy ∧
    ∀ m ∈ mappedAccesses busy.config,
      Ready (given busy [.load (word (m.1 + m.2.1)) m.2.2.1]) ∧ (word (m.1 + m.2.1)).toNat = m.1 + m.2.1 := by decide

theorem witness_OddTimerAccessesAreRefused :
    Ready (given busy [.load 0x0200BFF8 .bytes1]) ∧ WindowsApart busy ∧
    ∀ p ∈ [((0x0200BFF8 : Word), AccessWidth.bytes1), (0x0200BFFF, .bytes2), (0x02004004, .bytes8),
        (0x02004007, .bytes4)],
      p.1.toNat < wordSize busy ∧
      (busy.config.mtimeAddr.toNat ≤ p.1.toNat ∧ p.1.toNat < busy.config.mtimeAddr.toNat + 8 ∨
        busy.config.mtimecmpAddr.toNat ≤ p.1.toNat ∧ p.1.toNat < busy.config.mtimecmpAddr.toNat + 8) ∧
      (p.2 = .bytes1 ∨ p.2 = .bytes2 ∨ p.1.toNat % accessBytes p.2 ≠ 0) := by decide

theorem witness_DriverSetAndClearMeetTheirContract :
    (∃ t, exec (.csrSet (csrNumber .mstatus)) { busy with wdata := 31 } = .next t) ∧
    (∃ t, exec (.csrClear (csrNumber .mie)) { busy with wdata := 32 } = .next t) := ⟨⟨_, rfl⟩, ⟨_, rfl⟩⟩

end Sys2Proof.Tests
end

section
/-! PROOFS. The encoding (30_encoding.md): which words the decoder takes, which command a row of the opcode table is, and
which commands are `ILLEGAL`. -/

open Sys2Proof Sys2Proof.Machine Sys2Proof.Spec

namespace Sys2Proof.Proofs.Encoding

/-! ## The fields of a command word as numbers (30_encoding.md R80) -/

theorem opField_toNat (w : CommandWord) : (opField w).toNat = w.toNat / 2 ^ 28 % 16 := by
  simp [opField, BitVec.extractLsb'_toNat, Nat.shiftRight_eq_div_pow]

theorem zeroField_eq_zero_iff (w : CommandWord) : zeroField w = 0 ↔ w.toNat / 2 ^ 17 % 2 ^ 11 = 0 := by
  simp [zeroField, ← BitVec.toNat_inj, BitVec.extractLsb'_toNat, Nat.shiftRight_eq_div_pow]

theorem immField_eq (w : CommandWord) : immField w = BitVec.ofNat 5 (w.toNat / 2 ^ 12 % 2 ^ 5) := by
  simp [immField, ← BitVec.toNat_inj, BitVec.extractLsb'_toNat, Nat.shiftRight_eq_div_pow]

theorem immField_eq_zero_iff (w : CommandWord) : immField w = 0 ↔ w.toNat / 2 ^ 12 % 2 ^ 5 = 0 := by
  simp [immField_eq, ← BitVec.toNat_inj]

theorem selField_eq (w : CommandWord) : selField w = BitVec.ofNat 12 (w.toNat % 2 ^ 12) := by
  simp [selField, ← BitVec.toNat_inj, BitVec.extractLsb'_toNat]

theorem selField_eq_zero_iff (w : CommandWord) : selField w = 0 ↔ w.toNat % 2 ^ 12 = 0 := by
  simp [selField_eq, ← BitVec.toNat_inj]

/-! ## The decoder, by the steps of 30_encoding.md R95 -/

theorem selectorForm_ok_iff (w : CommandWord) (i : Instr) : (∃ j, selectorForm w i = .ok j) ↔ immField w = 0 := by
  unfold selectorForm
  split
  case isTrue himm => exact iff_of_true ⟨i, rfl⟩ himm
  case isFalse himm => exact iff_of_false (by simp) himm

theorem bareForm_ok_iff (w : CommandWord) (i : Instr) :
    (∃ j, bareForm w i = .ok j) ↔ immField w = 0 ∧ selField w = 0 := by
  unfold bareForm
  split
  case isTrue himm =>
    split
    case isTrue hsel => exact iff_of_true ⟨i, rfl⟩ ⟨himm, hsel⟩
    case isFalse hsel => exact iff_of_false (by simp) fun h => hsel h.2
  case isFalse himm => exact iff_of_false (by simp) fun h => himm h.1

/-- Step (1). -/
theorem decode_of_zeroField_ne {w : CommandWord} (hz : zeroField w ≠ 0) : decode w = .error .zeroField := if_neg hz

/-! Step (2), one equation for each `op`. -/

section
variable {w : CommandWord} (hz : zeroField w = 0)
include hz

theorem decode_csrRead (ho : (opField w).toNat = 0x0) : decode w = selectorForm w (.csrRead (selField w)) := by
  simp only [decode, hz, ho, if_true]

theorem decode_csrWrite (ho : (opField w).toNat = 0x1) : decode w = selectorForm w (.csrWrite (selField w)) := by
  simp only [decode, hz, ho, if_true]

theorem decode_csrSet (ho : (opField w).toNat = 0x2) : decode w = selectorForm w (.csrSet (selField w)) := by
  simp only [decode, hz, ho, if_true]

theorem decode_csrClear (ho : (opField w).toNat = 0x3) : decode w = selectorForm w (.csrClear (selField w)) := by
  simp only [decode, hz, ho, if_true]

theorem decode_csrWriteI (ho : (opField w).toNat = 0x5) : decode w = .ok (.csrWriteI (selField w) (immField w)) := by
  simp only [decode, hz, ho, if_true]

theorem decode_csrSetI (ho : (opField w).toNat = 0x6) : decode w = .ok (.csrSetI (selField w) (immField w)) := by
  simp only [decode, hz, ho, if_true]

theorem decode_csrClearI (ho : (opField w).toNat = 0x7) : decode w = .ok (.csrClearI (selField w) (immField w)) := by
  simp only [decode, hz, ho, if_true]

theorem decode_tmrRead (ho : (opField w).toNat = 0x8) : decode w = selectorForm w (.tmrRead (selField w)) := by
  simp only [decode, hz, ho, if_true]

theorem decode_tmrWrite (ho : (opField w).toNat = 0x9) : decode w = selectorForm w (.tmrWrite (selField w)) := by
  simp only [decode, hz, ho, if_true]

theorem decode_tmrRearm (ho : (opField w).toNat = 0xA) : decode w = bareForm w .tmrRearm := by
  simp only [decode, hz, ho, if_true]

theorem decode_tmrConv (ho : (opField w).toNat = 0xB) : decode w = bareForm w .tmrConv := by
  simp only [decode, hz, ho, if_true]

theorem decode_trapRet (ho : (opField w).toNat = 0xC) : decode w = bareForm w .trapRet := by
  simp only [decode, hz, ho, if_true]

theorem decode_trapSvc (ho : (opField w).toNat = 0xD) : decode w = bareForm w .trapSvc := by
  simp only [decode, hz, ho, if_true]

theorem decode_wait (ho : (opField w).toNat = 0xE) : decode w = bareForm w .wait := by
  simp only [decode, hz, ho, if_true]

theorem decode_reservedOp (ho : (opField w).toNat = 4 ∨ (opField w).toNat = 15) : decode w = .error .reservedOp := by
  rcases ho with ho | ho <;> simp only [decode, hz, ho, if_true]

/-! The same by the form of the command: which of its fields must be 0. -/

theorem decode_selectorOp (ho : (opField w).toNat ≤ 3 ∨ (opField w).toNat = 8 ∨ (opField w).toNat = 9) :
    ∃ i, decode w = selectorForm w i := by
  have hop : (opField w).toNat = 0 ∨ (opField w).toNat = 1 ∨ (opField w).toNat = 2 ∨ (opField w).toNat = 3 ∨
      (opField w).toNat = 8 ∨ (opField w).toNat = 9 := by omega
  rcases hop with ho | ho | ho | ho | ho | ho
  · exact ⟨_, decode_csrRead hz ho⟩
  · exact ⟨_, decode_csrWrite hz ho⟩
  · exact ⟨_, decode_csrSet hz ho⟩
  · exact ⟨_, decode_csrClear hz ho⟩
  · exact ⟨_, decode_tmrRead hz ho⟩
  · exact ⟨_, decode_tmrWrite hz ho⟩

theorem decode_immediateOp (ho : 5 ≤ (opField w).toNat ∧ (opField w).toNat ≤ 7) : ∃ i, decode w = .ok i := by
  have hop : (opField w).toNat = 5 ∨ (opField w).toNat = 6 ∨ (opField w).toNat = 7 := by omega
  rcases hop with ho | ho | ho
  · exact ⟨_, decode_csrWriteI hz ho⟩
  · exact ⟨_, decode_csrSetI hz ho⟩
  · exact ⟨_, decode_csrClearI hz ho⟩

theorem decode_bareOp (ho : 10 ≤ (opField w).toNat ∧ (opField w).toNat ≤ 14) : ∃ i, decode w = bareForm w i := by
  have hop : (opField w).toNat = 10 ∨ (opField w).toNat = 11 ∨ (opField w).toNat = 12 ∨ (opField w).toNat = 13 ∨
      (opField w).toNat = 14 := by omega
  rcases hop with ho | ho | ho | ho | ho
  · exact ⟨_, decode_tmrRearm hz ho⟩
  · exact ⟨_, decode_tmrConv hz ho⟩
  · exact ⟨_, decode_trapRet hz ho⟩
  · exact ⟨_, decode_trapSvc hz ho⟩
  · exact ⟨_, decode_wait hz ho⟩

end

/-! ## Reserved words (30_encoding.md R85) -/

/-- The decoder takes the words that are not reserved, and no other. -/
theorem decode_ok_iff (w : CommandWord) : (∃ i, decode w = .ok i) ↔ ¬ Reserved w.toNat := by
  by_cases hz : zeroField w = 0
  case neg =>
    have hzero := (zeroField_eq_zero_iff w).not.mp hz
    rw [decode_of_zeroField_ne hz]
    refine iff_of_false (by simp) ?_
    omega
  have hzero := (zeroField_eq_zero_iff w).mp hz
  have hop := opField_toNat w
  have hforms : ((opField w).toNat ≤ 3 ∨ (opField w).toNat = 8 ∨ (opField w).toNat = 9) ∨
      (5 ≤ (opField w).toNat ∧ (opField w).toNat ≤ 7) ∨ (10 ≤ (opField w).toNat ∧ (opField w).toNat ≤ 14) ∨
      ((opField w).toNat = 4 ∨ (opField w).toNat = 15) := by omega
  rcases hforms with ho | ho | ho | ho
  · obtain ⟨i, hi⟩ := decode_selectorOp hz ho
    rw [hi, selectorForm_ok_iff, immField_eq_zero_iff]
    omega
  · refine iff_of_true (decode_immediateOp hz ho) ?_
    omega
  · obtain ⟨i, hi⟩ := decode_bareOp hz ho
    rw [hi, bareForm_ok_iff, immField_eq_zero_iff, selField_eq_zero_iff]
    omega
  · rw [decode_reservedOp hz ho]
    refine iff_of_false (by simp) ?_
    omega

/-- A command word the decoder does not take is answered `ILLEGAL`. -/
theorem performCommand_of_not_ok {w : CommandWord} (h : ¬ ∃ i, decode w = .ok i) (d : Word) (s : State) :
    performCommand w d s = .next ({ s with wdata := d }.answerIllegal) := by
  unfold performCommand
  cases hd : decode w with
  | ok i => exact absurd ⟨i, hd⟩ h
  | error e => rfl

/-- Settles O3: the decoder takes exactly the words that are not reserved, and the step answers `ILLEGAL` where it takes
none. -/
theorem reservedWordsAreIllegal : Obligations.ReservedWordsAreIllegal := by
  refine ⟨fun w h => (decode_ok_iff w).mpr h, fun s w d rest ⟨hflag, hawake⟩ hinputs hres => ?_⟩
  have hnext : nextInput s.waiting s.inputs = some (.command w d, rest) := by
    rw [hawake, hinputs, nextInput_awake]
  rw [step_perform hflag hnext]
  exact performCommand_of_not_ok (fun hok => (decode_ok_iff w).mp hok hres) d _

/-! ## Rows of the opcode table (30_encoding.md R96) -/

/-- A mask of the bits 31 to `k` clears the `k` low bits of a command word. -/
theorem and_highMask (w : CommandWord) {k m : Nat} (hk : k ≤ 32) (hm : m = (2 ^ (32 - k) - 1) * 2 ^ k) :
    w.toNat &&& m = w.toNat / 2 ^ k * 2 ^ k := by
  have hw : w.toNat / 2 ^ k < 2 ^ (32 - k) := by
    rw [Nat.div_lt_iff_lt_mul (Nat.two_pow_pos k), ← Nat.pow_add, Nat.sub_add_cancel hk]
    exact w.isLt
  calc w.toNat &&& m
      = (w.toNat / 2 ^ k &&& (2 ^ (32 - k) - 1)) * 2 ^ k := by
        refine Nat.eq_of_testBit_eq fun i => ?_
        by_cases hi : k ≤ i <;> simp [hm, Nat.testBit_mul_two_pow, Nat.testBit_div_two_pow, hi, Bool.and_comm]
    _ = w.toNat / 2 ^ k * 2 ^ k := by rw [Nat.and_two_pow_sub_one_of_lt_two_pow hw]

/-- The words of a row of the commands with a selector and no immediate. -/
theorem decode_selectorRow {op : Nat} {command : Selector → Instr} {w : CommandWord}
    (hrow : w.toNat &&& 0xFFFFF000 = op * 2 ^ 28)
    (hop : zeroField w = 0 → (opField w).toNat = op → decode w = selectorForm w (command (selField w))) :
    decode w = .ok (command (BitVec.ofNat 12 (w.toNat % 2 ^ 12))) := by
  have hw := w.isLt
  rw [and_highMask w (k := 12) (m := 0xFFFFF000) (by decide) rfl] at hrow
  have himm : immField w = 0 := (immField_eq_zero_iff w).mpr (by omega)
  rw [hop ((zeroField_eq_zero_iff w).mpr (by omega)) (by rw [opField_toNat]; omega), selectorForm, if_pos himm,
    selField_eq]

/-- The words of a row of the commands with an immediate. -/
theorem decode_immediateRow {op : Nat} {command : Selector → Imm5 → Instr} {w : CommandWord}
    (hrow : w.toNat &&& 0xFFFE0000 = op * 2 ^ 28)
    (hop : zeroField w = 0 → (opField w).toNat = op → decode w = .ok (command (selField w) (immField w))) :
    decode w = .ok (command (BitVec.ofNat 12 (w.toNat % 2 ^ 12)) (BitVec.ofNat 5 (w.toNat / 2 ^ 12 % 2 ^ 5))) := by
  have hw := w.isLt
  rw [and_highMask w (k := 17) (m := 0xFFFE0000) (by decide) rfl] at hrow
  rw [hop ((zeroField_eq_zero_iff w).mpr (by omega)) (by rw [opField_toNat]; omega), selField_eq, immField_eq]

/-- The one word of a row of a command without fields. -/
theorem decode_bareRow {op : Nat} {command : Instr} {w : CommandWord} (hrow : w.toNat &&& 0xFFFFFFFF = op * 2 ^ 28)
    (hop : zeroField w = 0 → (opField w).toNat = op → decode w = bareForm w command) :
    decode w = .ok command := by
  have hw := w.isLt
  rw [and_highMask w (k := 0) (m := 0xFFFFFFFF) (by decide) rfl] at hrow
  have himm : immField w = 0 := (immField_eq_zero_iff w).mpr (by omega)
  have hsel : selField w = 0 := (selField_eq_zero_iff w).mpr (by omega)
  rw [hop ((zeroField_eq_zero_iff w).mpr (by omega)) (by rw [opField_toNat]; omega), bareForm, if_pos himm, if_pos hsel]

/-- Settles O4, row by row: the mask fixes `op` and the fields the row's command does not have. -/
theorem matchedRowDecodesToItsCommand : Obligations.MatchedRowDecodesToItsCommand := by
  refine ⟨rfl, ?_⟩
  simp only [rows, List.forall_mem_cons, List.not_mem_nil, false_imp_iff, implies_true, and_true]
  exact ⟨fun w h => decode_selectorRow (op := 0x0) h decode_csrRead,
    fun w h => decode_selectorRow (op := 0x1) h decode_csrWrite,
    fun w h => decode_selectorRow (op := 0x2) h decode_csrSet,
    fun w h => decode_selectorRow (op := 0x3) h decode_csrClear,
    fun w h => decode_immediateRow (op := 0x5) h decode_csrWriteI,
    fun w h => decode_immediateRow (op := 0x6) h decode_csrSetI,
    fun w h => decode_immediateRow (op := 0x7) h decode_csrClearI,
    fun w h => decode_selectorRow (op := 0x8) h decode_tmrRead,
    fun w h => decode_selectorRow (op := 0x9) h decode_tmrWrite,
    fun w h => decode_bareRow (op := 0xA) h decode_tmrRearm,
    fun w h => decode_bareRow (op := 0xB) h decode_tmrConv,
    fun w h => decode_bareRow (op := 0xC) h decode_trapRet,
    fun w h => decode_bareRow (op := 0xD) h decode_trapSvc,
    fun w h => decode_bareRow (op := 0xE) h decode_wait⟩

/-! ## Commands that name no register (30_encoding.md R86) -/

theorem namesCsr_eq_false_iff {c : Config} {sel : Selector} : namesCsr c sel = false ↔ Csr.ofSelector c sel = none := by
  simp [namesCsr]

theorem namesTimer_eq_false_iff {sel : Selector} : namesTimer sel = false ↔ TimerReg.ofSelector sel = none := by
  simp [namesTimer]

/-- `TMR_WRITE` stores in exactly the writable registers of the timer space. -/
theorem tmrStore_eq_none_iff (s : State) (r : TimerReg) : tmrStore s r = none ↔ r.writable = false := by
  cases r <;> simp [tmrStore, TimerReg.writable]

theorem namesWritableTimer_eq_false_iff {sel : Selector} (s : State) :
    namesWritableTimer sel = false ↔ (TimerReg.ofSelector sel).bind (tmrStore s) = none := by
  unfold namesWritableTimer
  cases TimerReg.ofSelector sel with
  | none => simp
  | some r => simp [tmrStore_eq_none_iff]

/-! The six writing CSR commands are one shape (40_csr_ops.md R100). -/

theorem exec_csrWrite (sel : Selector) (s : State) :
    exec (.csrWrite sel) s = csrUpdate sel true (fun _ => wdataOperand s) s := rfl

theorem exec_csrSet (sel : Selector) (s : State) :
    exec (.csrSet sel) s = csrUpdate sel false (fun old => old ||| wdataOperand s) s := rfl

theorem exec_csrClear (sel : Selector) (s : State) :
    exec (.csrClear sel) s = csrUpdate sel false (fun old => old &&& ~~~wdataOperand s) s := rfl

theorem exec_csrWriteI (sel : Selector) (imm : Imm5) (s : State) :
    exec (.csrWriteI sel imm) s = csrUpdate sel true (fun _ => immOperand imm) s := rfl

theorem exec_csrSetI (sel : Selector) (imm : Imm5) (s : State) :
    exec (.csrSetI sel imm) s = csrUpdate sel false (fun old => old ||| immOperand imm) s := rfl

theorem exec_csrClearI (sel : Selector) (imm : Imm5) (s : State) :
    exec (.csrClearI sel imm) s = csrUpdate sel false (fun old => old &&& ~~~immOperand imm) s := rfl

/-! The answer where the selector names no register. -/

theorem csrUpdate_of_unnamed {sel : Selector} {installs : Bool} {newOf : Word → Word} {s : State}
    (h : namesCsr s.config sel = false) : csrUpdate sel installs newOf s = .next s.answerIllegal := by
  rw [csrUpdate, namesCsr_eq_false_iff.mp h]

theorem execCsrRead_of_unnamed {sel : Selector} {s : State} (h : namesCsr s.config sel = false) :
    execCsrRead sel s = .next s.answerIllegal := by
  rw [execCsrRead, namesCsr_eq_false_iff.mp h]

theorem execTmrRead_of_unnamed {sel : Selector} {s : State} (h : namesTimer sel = false) :
    execTmrRead sel s = .next s.answerIllegal := by
  rw [execTmrRead, namesTimer_eq_false_iff.mp h]

theorem execTmrWrite_of_unnamed {sel : Selector} {s : State} (h : namesWritableTimer sel = false) :
    execTmrWrite sel s = .next s.answerIllegal := by
  rw [execTmrWrite, (namesWritableTimer_eq_false_iff s).mp h]

/-- A command whose selector names no register it may act on is answered `ILLEGAL` and changes nothing else. -/
theorem exec_of_not_wellFormed {i : Instr} {s : State} (h : i.wellFormed s.config = false) :
    exec i s = .next s.answerIllegal := by
  cases i with
  | csrRead sel => exact execCsrRead_of_unnamed h
  | csrWrite sel => exact (exec_csrWrite sel s).trans (csrUpdate_of_unnamed h)
  | csrSet sel => exact (exec_csrSet sel s).trans (csrUpdate_of_unnamed h)
  | csrClear sel => exact (exec_csrClear sel s).trans (csrUpdate_of_unnamed h)
  | csrWriteI sel imm => exact (exec_csrWriteI sel imm s).trans (csrUpdate_of_unnamed h)
  | csrSetI sel imm => exact (exec_csrSetI sel imm s).trans (csrUpdate_of_unnamed h)
  | csrClearI sel imm => exact (exec_csrClearI sel imm s).trans (csrUpdate_of_unnamed h)
  | tmrRead sel => exact execTmrRead_of_unnamed h
  | tmrWrite sel => exact execTmrWrite_of_unnamed h
  | tmrRearm | tmrConv | trapRet | trapSvc | wait => cases h

/-! ## Commands that name a register -/

/-- A store to a CSR drives no port. -/
theorem csrStore_outputs {installs : Bool} {r : Csr} {new : Word} {s t : State} (h : csrStore installs r new s = .next t) :
    t.outputs = s.outputs := by
  rcases csrStore_next h with ⟨-, rfl⟩ | ⟨-, rfl⟩ | ⟨-, -, rfl⟩ | ⟨-, -, -, rfl⟩ | ⟨-, rfl⟩ | ⟨-, rfl⟩ | ⟨-, rfl⟩ |
    ⟨-, rfl⟩ <;> rfl

theorem csrUpdate_resp {sel : Selector} {installs : Bool} {newOf : Word → Word} {s t : State}
    (hn : namesCsr s.config sel = true) (h : csrUpdate sel installs newOf s = .next t) : t.outputs.resp = some .ok := by
  rcases csrUpdate_next h with ⟨hnone, -⟩ | ⟨r, -, hstore⟩
  · simp [namesCsr, hnone] at hn
  · rw [csrStore_outputs hstore, State.answerOk_outputs]

theorem execCsrRead_resp {sel : Selector} {s t : State} (hn : namesCsr s.config sel = true)
    (h : execCsrRead sel s = .next t) : t.outputs.resp = some .ok := by
  obtain ⟨r, hr⟩ := Option.isSome_iff_exists.mp hn
  rw [execCsrRead, hr] at h
  cases h
  rfl

theorem execTmrRead_resp {sel : Selector} {s t : State} (hn : namesTimer sel = true)
    (h : execTmrRead sel s = .next t) : t.outputs.resp = some .ok := by
  obtain ⟨r, hr⟩ := Option.isSome_iff_exists.mp hn
  rw [execTmrRead, hr] at h
  cases h
  rfl

theorem execTmrWrite_resp {sel : Selector} {s t : State} (hn : namesWritableTimer sel = true)
    (h : execTmrWrite sel s = .next t) : t.outputs.resp = some .ok := by
  cases hu : (TimerReg.ofSelector sel).bind (tmrStore s) with
  | none => simp [(namesWritableTimer_eq_false_iff s).mpr hu] at hn
  | some u =>
    rw [execTmrWrite, hu] at h
    cases h
    rfl

/-- A command that names a register it may act on, or needs none, answers `OK` in every next state. -/
theorem exec_resp_of_wellFormed {i : Instr} {s t : State} (hwf : i.wellFormed s.config = true)
    (h : exec i s = .next t) : t.outputs.resp = some .ok := by
  cases i with
  | csrRead sel => exact execCsrRead_resp hwf h
  | csrWrite sel => exact csrUpdate_resp hwf ((exec_csrWrite sel s).symm.trans h)
  | csrSet sel => exact csrUpdate_resp hwf ((exec_csrSet sel s).symm.trans h)
  | csrClear sel => exact csrUpdate_resp hwf ((exec_csrClear sel s).symm.trans h)
  | csrWriteI sel imm => exact csrUpdate_resp hwf ((exec_csrWriteI sel imm s).symm.trans h)
  | csrSetI sel imm => exact csrUpdate_resp hwf ((exec_csrSetI sel imm s).symm.trans h)
  | csrClearI sel imm => exact csrUpdate_resp hwf ((exec_csrClearI sel imm s).symm.trans h)
  | tmrRead sel => exact execTmrRead_resp hwf h
  | tmrWrite sel => exact execTmrWrite_resp hwf h
  | tmrRearm | tmrConv | trapRet | trapSvc | wait => cases h; rfl

/-- Settles O22: both directions go command by command, by what the selector names. -/
theorem illegalExactlyWhenNoRegisterIsNamed : Obligations.IllegalExactlyWhenNoRegisterIsNamed :=
  fun _ _ => ⟨exec_of_not_wellFormed, fun _ h hwf => exec_resp_of_wellFormed hwf h⟩

end Sys2Proof.Proofs.Encoding
end

section
/-! PROOFS. The CSR commands (40_csr_ops.md): what each of the seven answers, stores, refuses and leaves as it was.

Every writing command is the one shape of R100, given by whether it is a full write and by its new value (`IsUpdate`);
reading, storing and refusing are settled once, for that shape. -/

open Sys2Proof Sys2Proof.Machine Sys2Proof.Spec Sys2Proof.Proofs.Encoding

namespace Sys2Proof.Proofs.CsrOps

/-! ## Selectors (10_state.md R25) -/

theorem selector_eq_csrNumber {c : Config} (h : Decided c) (r : Csr) : r.selector c = csrNumber r := by
  rw [h.selector]
  cases r <;> rfl

theorem ofSelector_csrNumber {c : Config} (h : Decided c) (r : Csr) : Csr.ofSelector c (csrNumber r) = some r := by
  rw [← selector_eq_csrNumber h]
  exact Csr.ofSelector_selector h.selectors r

theorem namesCsr_of_ne_csrNumber {c : Config} (h : Decided c) {sel : Selector} (hne : ∀ r, sel ≠ csrNumber r) :
    namesCsr c sel = false :=
  namesCsr_eq_false_iff.mpr (Csr.ofSelector_eq_none.mpr fun r => selector_eq_csrNumber h r ▸ hne r)

/-! ## Words and their numbers -/

theorem word_toNat (v : Word) : word v.toNat = v := BitVec.ofNat_toNat 64 v

theorem two_pow_xlenBits_le (x : XLen) : 2 ^ xlenBits x ≤ 2 ^ 64 := by cases x <;> decide

theorem toNat_word_mod (x : XLen) (n : Nat) : (word (n % 2 ^ xlenBits x)).toNat = n % 2 ^ xlenBits x := by
  rw [word, BitVec.toNat_ofNat]
  exact Nat.mod_eq_of_lt ((Nat.mod_lt _ (Nat.two_pow_pos _)).trans_le (two_pow_xlenBits_le x))

theorem truncXlen_eq_word (x : XLen) (v : Word) : truncXlen x v = word (v.toNat % 2 ^ xlenBits x) := by
  rw [← truncXlen_toNat, word_toNat]

theorem alignPc_truncXlen_eq_word (x : XLen) (v : Word) :
    alignPc (truncXlen x v) = word (v.toNat % 2 ^ xlenBits x / 4 * 4) := by
  rw [← truncXlen_toNat, ← alignPc_toNat, word_toNat]

theorem getLsbD_truncXlen (x : XLen) (v : Word) (k : Nat) :
    (truncXlen x v).getLsbD k = (decide (k < xlenBits x) && v.getLsbD k) := by
  rw [BitVec.getLsbD, truncXlen_toNat, Nat.testBit_mod_two_pow, BitVec.getLsbD]

theorem getLsbD_bitAt_of_ne (b : Bool) {n k : Nat} (h : k ≠ n) : (bitAt b n).getLsbD k = false := by
  simp only [bitAt, BitVec.getLsbD_shiftLeft, BitVec.getLsbD_setWidth, BitVec.getLsbD_ofBool]
  by_cases hlt : k < n
  · simp [hlt]
  · have hsub : k - n ≠ 0 := by omega
    simp [hsub]

theorem andNot_toNat (a b : Word) : (a &&& ~~~b).toNat = andNot a.toNat b.toNat := by
  have hxor : a &&& ~~~b = a ^^^ (a &&& b) := by
    ext i
    simp only [BitVec.getElem_and, BitVec.getElem_not, BitVec.getElem_xor]
    cases a[i] <;> simp
  rw [hxor, BitVec.toNat_xor, BitVec.toNat_and, andNot]

/-! ## Reading (40_csr_ops.md R101) -/

theorem mtip_toNat (s : State) : s.mtip.toNat = mtip s := by
  unfold State.mtip mtip
  split <;> simp [*]

/-- The model reads every register as the rule does. -/
theorem csrRead_toNat {s : State} (h : Decided s.config) (r : Csr) : (csrRead s r).toNat = csrValue s r := by
  cases r with
  | mstatus => exact csrRead_mstatus_toNat h
  | mie => exact csrRead_mie_toNat h
  | mtvec => exact csrRead_mtvec_toNat s
  | mepc => exact csrRead_mepc_toNat s
  | mcause => exact csrRead_mcause_toNat s
  | mtval => exact csrRead_mtval_toNat s
  | mip => rw [csrRead_mip_toNat h, mtip_toNat, csrValue]

theorem csrRead_eq_word {s : State} (h : Decided s.config) (r : Csr) : csrRead s r = word (csrValue s r) := by
  rw [← csrRead_toNat h, word_toNat]

theorem testBit_csrValue {s : State} (h : Decided s.config) (r : Csr) (k : Nat) :
    (csrValue s r).testBit k = (csrRead s r).getLsbD k := by
  rw [← csrRead_toNat h, BitVec.getLsbD]

theorem answerOk_csrRead {s : State} (h : Decided s.config) (r : Csr) :
    s.answerOk (csrRead s r) = { s with outputs := okOutputs (csrValue s r) } := by
  rw [csrRead_eq_word h, State.answerOk, okOutputs]

theorem exec_csrRead {s : State} (h : Decided s.config) (r : Csr) :
    exec (.csrRead (csrNumber r)) s = .next { s with outputs := okOutputs (csrValue s r) } := by
  rw [← answerOk_csrRead h]
  show execCsrRead (csrNumber r) s = _
  rw [execCsrRead, ofSelector_csrNumber h]

/-! ## Storing (40_csr_ops.md R102) -/

/-- The model stores in every register as the rule does, where the store is not the refused one. -/
theorem csrStore_eq_stored {full : Bool} {r : Csr} {new : Word} {s : State} (h : Decided s.config)
    (hr : ¬ refusesTvec full r new.toNat s) : csrStore full r new s = .next (stored full r new.toNat s) := by
  cases r with
  | mstatus => simp only [csrStore, stored, statusOfWord, h.statusMie, h.statusMpie, BitVec.getLsbD]
  | mie => simp only [csrStore, stored, enableOfWord, h.irqMsi, h.irqMti, h.irqMei, BitVec.getLsbD]
  | mtvec =>
    rw [csrStore, stored]
    rcases tvecStore_cases full new s with ⟨hoff, hs⟩ | ⟨hon, hbit, -⟩ | ⟨hon, -, hs⟩
    · rw [hs, if_pos (by simpa using hoff)]
    · exact absurd ⟨rfl, by simpa [or_comm] using hon, hbit⟩ hr
    · rw [hs, if_neg (by rw [← Bool.or_eq_false_iff, hon]; decide), truncXlen_eq_word, wordSize]
  | mepc => rw [csrStore, stored, alignPc_truncXlen_eq_word, wordSize]
  | mcause => rw [csrStore, stored, truncXlen_eq_word, wordSize]
  | mtval => rw [csrStore, stored, truncXlen_eq_word, wordSize]
  | mip => rfl

theorem csrStore_of_refusesTvec {full : Bool} {r : Csr} {new : Word} {s : State}
    (hr : refusesTvec full r new.toNat s) : csrStore full r new s = .refused .reservedTvecMode := by
  obtain ⟨rfl, hon, hbit⟩ := hr
  have hstores : (s.tvecInstalled || full) = true := by simpa [or_comm] using hon
  rw [csrStore, tvecStore, if_pos hstores]
  exact if_pos hbit

theorem stored_outputs (full : Bool) (r : Csr) (new : Nat) (s : State) (o : Outputs) :
    stored full r new { s with outputs := o } = { stored full r new s with outputs := o } := by
  cases r with
  | mtvec => simp only [stored]; split <;> rfl
  | mstatus | mie | mepc | mcause | mtval | mip => rfl

theorem stored_config (full : Bool) (r : Csr) (new : Nat) (s : State) : (stored full r new s).config = s.config := by
  cases r with
  | mtvec => simp only [stored]; split <;> rfl
  | mstatus | mie | mepc | mcause | mtval | mip => rfl

theorem csrValue_outputs (s : State) (o : Outputs) (r : Csr) : csrValue { s with outputs := o } r = csrValue s r := by
  cases r <;> rfl

/-! ## The shape of a writing command (40_csr_ops.md R100) -/

/-- The command is an update of the register its selector names, with the new value `newOf s old`. -/
def IsUpdate (full : Bool) (i : Selector → Instr) (newOf : State → Nat → Nat) : Prop :=
  ∃ wordOf : State → Word → Word, (∀ sel s, exec (i sel) s = csrUpdate sel full (wordOf s) s) ∧
    ∀ s old, (wordOf s old).toNat = newOf s old.toNat

theorem csrWrite_isUpdate : IsUpdate true .csrWrite (fun s _ => operand s) :=
  ⟨fun s _ => wdataOperand s, exec_csrWrite, fun s _ => operand_toNat s⟩

theorem csrSet_isUpdate : IsUpdate false .csrSet (fun s old => old ||| operand s) :=
  ⟨fun s old => old ||| wdataOperand s, exec_csrSet, fun s old => by
    rw [BitVec.toNat_or, operand_toNat]; rfl⟩

theorem csrClear_isUpdate : IsUpdate false .csrClear (fun s old => andNot old (operand s)) :=
  ⟨fun s old => old &&& ~~~wdataOperand s, exec_csrClear, fun s old => by
    rw [andNot_toNat, operand_toNat]; rfl⟩

theorem csrWriteI_isUpdate (imm : Imm5) : IsUpdate true (fun sel => .csrWriteI sel imm) (fun _ _ => imm.toNat) :=
  ⟨fun _ _ => immOperand imm, fun sel s => exec_csrWriteI sel imm s, fun _ _ => immOperand_toNat imm⟩

theorem csrSetI_isUpdate (imm : Imm5) :
    IsUpdate false (fun sel => .csrSetI sel imm) (fun _ old => old ||| imm.toNat) :=
  ⟨fun _ old => old ||| immOperand imm, fun sel s => exec_csrSetI sel imm s, fun _ old => by
    rw [BitVec.toNat_or, immOperand_toNat]⟩

theorem csrClearI_isUpdate (imm : Imm5) :
    IsUpdate false (fun sel => .csrClearI sel imm) (fun _ old => andNot old imm.toNat) :=
  ⟨fun _ old => old &&& ~~~immOperand imm, fun sel s => exec_csrClearI sel imm s, fun _ old => by
    rw [andNot_toNat, immOperand_toNat]⟩

/-- The seven CSR commands are the read and six updates, and `newValue` tells which update. -/
theorem csrCommands_cases {sel : Selector} {imm : Imm5} {i : Instr} (hi : i ∈ csrCommands sel imm) :
    i = .csrRead sel ∨
    ∃ full command newOf, i = command sel ∧ IsUpdate full command newOf ∧
      ∀ s old, newValue s old i = some (full, newOf s old) := by
  simp only [csrCommands, List.mem_cons, List.not_mem_nil, or_false] at hi
  rcases hi with rfl | rfl | rfl | rfl | rfl | rfl | rfl
  · exact .inl rfl
  · exact .inr ⟨_, _, _, rfl, csrWrite_isUpdate, fun _ _ => rfl⟩
  · exact .inr ⟨_, _, _, rfl, csrSet_isUpdate, fun _ _ => rfl⟩
  · exact .inr ⟨_, _, _, rfl, csrClear_isUpdate, fun _ _ => rfl⟩
  · exact .inr ⟨_, _, _, rfl, csrWriteI_isUpdate imm, fun _ _ => rfl⟩
  · exact .inr ⟨_, _, _, rfl, csrSetI_isUpdate imm, fun _ _ => rfl⟩
  · exact .inr ⟨_, _, _, rfl, csrClearI_isUpdate imm, fun _ _ => rfl⟩

section
variable {full : Bool} {i : Selector → Instr} {newOf : State → Nat → Nat} {s : State} {r : Csr}

/-- An update of a register is the answer of its old value, then the store of the new one. -/
theorem IsUpdate.exec_eq_csrStore (hi : IsUpdate full i newOf) (h : Decided s.config) (r : Csr) :
    ∃ new : Word, new.toNat = newOf s (csrValue s r) ∧
      exec (i (csrNumber r)) s = csrStore full r new { s with outputs := okOutputs (csrValue s r) } := by
  obtain ⟨wordOf, hexec, hnew⟩ := hi
  refine ⟨wordOf s (csrRead s r), by rw [hnew, csrRead_toNat h], ?_⟩
  rw [hexec, csrUpdate, ofSelector_csrNumber h, ← answerOk_csrRead h]

theorem IsUpdate.exec_completes (hi : IsUpdate full i newOf) (h : Decided s.config)
    (hr : ¬ refusesTvec full r (newOf s (csrValue s r)) s) :
    exec (i (csrNumber r)) s =
      .next { stored full r (newOf s (csrValue s r)) s with outputs := okOutputs (csrValue s r) } := by
  obtain ⟨new, hnew, hexec⟩ := hi.exec_eq_csrStore h r
  rw [← hnew] at hr ⊢
  rw [hexec, ← stored_outputs]
  exact csrStore_eq_stored h hr

theorem IsUpdate.exec_refuses (hi : IsUpdate full i newOf) (h : Decided s.config)
    (hr : refusesTvec full r (newOf s (csrValue s r)) s) :
    exec (i (csrNumber r)) s = .refused .reservedTvecMode := by
  obtain ⟨new, hnew, hexec⟩ := hi.exec_eq_csrStore h r
  rw [← hnew] at hr
  rw [hexec]
  exact csrStore_of_refusesTvec hr

theorem IsUpdate.exec_unnamed (hi : IsUpdate full i newOf) (h : Decided s.config) {sel : Selector}
    (hne : ∀ r, sel ≠ csrNumber r) : exec (i sel) s = .next { s with outputs := illegalOutputs } := by
  obtain ⟨wordOf, hexec, -⟩ := hi
  rw [hexec, csrUpdate_of_unnamed (namesCsr_of_ne_csrNumber h hne), State.answerIllegal, illegalOutputs]

theorem IsUpdate.updateCompletes (hi : IsUpdate full i newOf) {op : CommandWord}
    (hword : ∀ sel, encode (i sel) = op ||| sel.setWidth 32) : UpdateCompletes full op i newOf :=
  ⟨hword, fun _ h => ⟨fun _ hr => hi.exec_completes h hr, fun _ hne => hi.exec_unnamed h hne⟩⟩

theorem IsUpdate.updateRefuses (hi : IsUpdate full i newOf) : UpdateRefuses full i newOf :=
  fun _ _ h hr => hi.exec_refuses h hr

end

/-! ## The words of the commands (30_encoding.md R80) -/

theorem packWord_selector (op : BitVec 4) (sel : Selector) :
    packWord op 0 sel = op.setWidth 32 <<< 28 ||| sel.setWidth 32 := by
  simp [packWord]

/-! ## A clear never refuses (40_csr_ops.md R106, R109) -/

/-- A clear leaves the reserved bit of an installed mtvec 0, so it always has a next state; whatever the numbers of the
registers are. -/
theorem csrUpdate_clear_next {s : State} (h : ReservedBitClear s) (sel : Selector) (mask : Word) :
    ∃ t, csrUpdate sel false (fun old => old &&& ~~~mask) s = .next t := by
  unfold csrUpdate
  cases Csr.ofSelector s.config sel with
  | none => exact ⟨_, rfl⟩
  | some r =>
    show ∃ t, csrStore false r (csrRead s r &&& ~~~mask) (s.answerOk (csrRead s r)) = .next t
    cases hstore : csrStore false r (csrRead s r &&& ~~~mask) (s.answerOk (csrRead s r)) with
    | next t => exact ⟨t, rfl⟩
    | fault f => exact absurd hstore (csrStore_ne_fault _ _ _ _ f)
    | refused e =>
      obtain ⟨-, rfl, hon, hbit⟩ := csrStore_refused hstore
      have hclear : s.mtvec.getLsbD 1 = false := h (by simpa using hon)
      rw [BitVec.getLsbD_and, csrRead, getLsbD_truncXlen, hclear] at hbit
      simp at hbit

/-! ## The statements of R103 to R109 -/

/-- Settles O7: the selector names a register, which `csrRead` reads as the rule does, or none. -/
theorem csrReadAnswersTheRegister : Obligations.CsrReadAnswersTheRegister := by
  refine ⟨fun sel => packWord_selector 0x0 sel, fun s h => ⟨exec_csrRead h, fun sel hne => ?_⟩⟩
  exact execCsrRead_of_unnamed (namesCsr_of_ne_csrNumber h hne)

/-- Settles O9: the update by the operand. -/
theorem csrWriteStoresTheOperand : Obligations.CsrWriteStoresTheOperand :=
  ⟨csrWrite_isUpdate.updateCompletes (packWord_selector 0x1), csrWrite_isUpdate.updateRefuses⟩

/-- Settles O10: the update by the union with the operand. -/
theorem csrSetStoresTheUnion : Obligations.CsrSetStoresTheUnion :=
  ⟨csrSet_isUpdate.updateCompletes (packWord_selector 0x2), csrSet_isUpdate.updateRefuses⟩

/-- Settles O11: the update by the difference; it cannot set the reserved bit, which a legal state has at 0. -/
theorem csrClearStoresTheDifference : Obligations.CsrClearStoresTheDifference :=
  ⟨csrClear_isUpdate.updateCompletes (packWord_selector 0x3),
    fun s sel hlegal => csrUpdate_clear_next hlegal.tvecReserved sel (wdataOperand s)⟩

/-- Settles O12: the update by the immediate; the command's word is `packWord` as it stands. -/
theorem csrWriteImmediateStoresTheImmediate : Obligations.CsrWriteImmediateStoresTheImmediate :=
  fun imm => ⟨(csrWriteI_isUpdate imm).updateCompletes fun _ => rfl, (csrWriteI_isUpdate imm).updateRefuses⟩

/-- Settles O13: the update by the union with the immediate. -/
theorem csrSetImmediateStoresTheUnion : Obligations.CsrSetImmediateStoresTheUnion :=
  fun imm => ⟨(csrSetI_isUpdate imm).updateCompletes fun _ => rfl, (csrSetI_isUpdate imm).updateRefuses⟩

/-- Settles O14: the update by the difference; as O11 it never refuses in a legal state. -/
theorem csrClearImmediateStoresTheDifference : Obligations.CsrClearImmediateStoresTheDifference :=
  fun imm => ⟨(csrClearI_isUpdate imm).updateCompletes fun _ => rfl,
    fun _ sel hlegal => csrUpdate_clear_next hlegal.tvecReserved sel (immOperand imm)⟩

/-! ## Hard-wired bits (10_state.md R26, R27, R30, R33) -/

theorem getLsbD_csrRead_mstatus {s : State} (h : Decided s.config) {k : Nat} (hmie : k ≠ 3) (hmpie : k ≠ 7) :
    (csrRead s .mstatus).getLsbD k = (3#64 <<< 11).getLsbD k := by
  rw [csrRead, h.statusMie, h.statusMpie, h.statusMpp, BitVec.getLsbD_or, BitVec.getLsbD_or, getLsbD_bitAt_of_ne _ hmie,
    getLsbD_bitAt_of_ne _ hmpie]
  rfl

theorem getLsbD_csrRead_mie {s : State} (h : Decided s.config) {k : Nat} (hmsi : k ≠ 3) (hmti : k ≠ 7)
    (hmei : k ≠ 11) : (csrRead s .mie).getLsbD k = false := by
  simp only [csrRead, sourceBits, irqNumber, h.irqMsi, h.irqMti, h.irqMei, BitVec.getLsbD_or,
    getLsbD_bitAt_of_ne _ hmsi, getLsbD_bitAt_of_ne _ hmti, getLsbD_bitAt_of_ne _ hmei, Bool.or_self]

theorem testBit_csrValue_mepc (s : State) {k : Nat} (hk : k < 2) : (csrValue s .mepc).testBit k = false := by
  rw [csrValue, show (4 : Nat) = 2 ^ 2 from rfl, Nat.testBit_mul_two_pow]
  simp [Nat.not_le.mpr hk]

/-- A store leaves every hard-wired bit of its register as it was. -/
theorem testBit_csrValue_stored {s : State} (h : Decided s.config) (full : Bool) {r : Csr} (new : Nat) {k : Nat}
    (hk : hardwiredBit r k) : (csrValue (stored full r new s) r).testBit k = (csrValue s r).testBit k := by
  have ht : Decided (stored full r new s).config := by rw [stored_config]; exact h
  cases r with
  | mstatus =>
    obtain ⟨hmie, hmpie⟩ := hk
    rw [testBit_csrValue ht, testBit_csrValue h, getLsbD_csrRead_mstatus ht hmie hmpie,
      getLsbD_csrRead_mstatus h hmie hmpie]
  | mie =>
    obtain ⟨hmsi, hmti, hmei⟩ := hk
    rw [testBit_csrValue ht, testBit_csrValue h, getLsbD_csrRead_mie ht hmsi hmti hmei,
      getLsbD_csrRead_mie h hmsi hmti hmei]
  | mepc => rw [testBit_csrValue_mepc _ hk, testBit_csrValue_mepc _ hk]
  | mip => rfl
  | mtvec | mcause | mtval => exact hk.elim

/-- Settles O16: the read has no new value and always answers; an update refuses or stores by what its new value is. -/
theorem csrCommandsNeverFail : Obligations.CsrCommandsNeverFail := by
  intro s r imm h _ i hi
  rcases csrCommands_cases hi with rfl | ⟨full, command, newOf, rfl, hupdate, hvalue⟩
  · constructor
    · rintro ⟨_, _, hnone, -⟩
      cases hnone
    · intro _
      refine ⟨_, exec_csrRead h r, rfl, fun k _ => ?_⟩
      rw [csrValue_outputs]
  · constructor
    · rintro ⟨full', new, hsome, hr⟩
      rw [hvalue] at hsome
      cases hsome
      exact hupdate.exec_refuses h hr
    · intro hcompletes
      refine ⟨_, hupdate.exec_completes h (hcompletes _ _ (hvalue s _)), rfl, fun k hk => ?_⟩
      rw [csrValue_outputs, testBit_csrValue_stored h full _ hk]

/-! ## Installing the dispatcher (40_csr_ops.md R113) -/

theorem csrValue_mtvec_lt_wordSize (s : State) : csrValue s .mtvec < wordSize s := Nat.mod_lt _ (Nat.two_pow_pos _)

theorem operand_lt_wordSize (s : State) : operand s < wordSize s := Nat.mod_lt _ (Nat.two_pow_pos _)

theorem imm_lt_wordSize (s : State) (imm : Imm5) : imm.toNat < wordSize s := by
  refine imm.isLt.trans_le ?_
  rw [wordSize]
  cases s.config.xlen <;> decide

theorem andNot_lt_two_pow {a b n : Nat} (ha : a < 2 ^ n) : andNot a b < 2 ^ n :=
  Nat.xor_lt_two_pow ha (Nat.and_le_left.trans_lt ha)

/-- The state after a store of `new` in an installed mtvec: the register reads `new`, and the dispatcher has the base and
mode `new` says. -/
theorem stored_mtvec {s : State} (h : Decided s.config) {full : Bool} {new : Nat}
    (hstores : full = true ∨ s.tvecInstalled = true) (hfits : new < wordSize s) :
    (stored full .mtvec new s).tvecInstalled = true ∧ csrValue (stored full .mtvec new s) .mtvec = new ∧
      base (stored full .mtvec new s) = new / 4 * 4 ∧
      (stored full .mtvec new s).mode = if new % 2 = 1 then .vectored else .direct := by
  have hmtvec : (word (new % wordSize s)).toNat = new :=
    (toNat_word_mod _ _).trans (Nat.mod_eq_of_lt hfits)
  have hstored : stored full .mtvec new s = { s with mtvec := word (new % wordSize s), tvecInstalled := true } := by
    rw [stored, if_neg]
    rintro ⟨hoff, hset⟩
    simp [hoff, hset] at hstores
  have hvalue : csrValue (stored full .mtvec new s) .mtvec = new := by
    rw [hstored, csrValue, hmtvec]
    exact Nat.mod_eq_of_lt hfits
  refine ⟨by rw [hstored], hvalue, ?_, ?_⟩
  · show csrValue (stored full .mtvec new s) .mtvec / (stored full .mtvec new s).config.directAlign *
      (stored full .mtvec new s).config.directAlign = _
    rw [hvalue, stored_config, h.directAlign]
  · rw [hstored, State.mode, if_pos rfl, BitVec.getLsbD, hmtvec, Nat.testBit_zero]
    simp only [decide_eq_true_eq]

section
variable {full : Bool} {i : Selector → Instr} {newOf : State → Nat → Nat} {s : State}

theorem IsUpdate.exec_mtvec (hi : IsUpdate full i newOf) (h : Decided s.config)
    (hstores : full = true ∨ s.tvecInstalled = true) (hfits : newOf s (csrValue s .mtvec) < wordSize s)
    (hbit : (newOf s (csrValue s .mtvec)).testBit 1 = false) :
    ∃ t, exec (i 0x305#12) s = .next t ∧ t.tvecInstalled = true ∧
      csrValue t .mtvec = newOf s (csrValue s .mtvec) ∧ base t = newOf s (csrValue s .mtvec) / 4 * 4 ∧
      t.mode = if newOf s (csrValue s .mtvec) % 2 = 1 then .vectored else .direct :=
  ⟨_, hi.exec_completes (r := .mtvec) h fun ⟨_, _, hset⟩ => Bool.false_ne_true (hbit.symm.trans hset),
    stored_mtvec h hstores hfits⟩

theorem IsUpdate.exec_mtvec_uninstalled (hi : IsUpdate false i newOf) (h : Decided s.config)
    (hoff : s.tvecInstalled = false) :
    exec (i 0x305#12) s = .next { s with outputs := okOutputs (csrValue s .mtvec) } := by
  have hr : ¬ refusesTvec false .mtvec (newOf s (csrValue s .mtvec)) s := by simp [hoff]
  have hkeeps : stored false .mtvec (newOf s (csrValue s .mtvec)) s = s := if_pos ⟨hoff, rfl⟩
  rw [show (0x305#12 : Selector) = csrNumber .mtvec from rfl, hi.exec_completes h hr, hkeeps]

theorem IsUpdate.exec_mtvec_installed (hi : IsUpdate full i newOf) (h : Decided s.config)
    (hon : s.tvecInstalled = true) (hfits : newOf s (csrValue s .mtvec) < wordSize s)
    (hbit : (newOf s (csrValue s .mtvec)).testBit 1 = false) :
    ∃ t, exec (i 0x305#12) s = .next t ∧ csrValue t .mtvec = newOf s (csrValue s .mtvec) := by
  obtain ⟨t, hexec, -, hvalue, -⟩ := hi.exec_mtvec h (.inr hon) hfits hbit
  exact ⟨t, hexec, hvalue⟩

end

/-- Settles O21: both full writes store whatever `tvecInstalled` is; a set or clear stores where it is true. -/
theorem onlyFullWritesInstallTheDispatcher : Obligations.OnlyFullWritesInstallTheDispatcher := by
  refine ⟨fun s h hbit => ?_, fun s imm h hbit => ?_, fun s imm h hoff => ?_, fun s imm h hon => ⟨?_, ?_, ?_, ?_⟩⟩
  · exact csrWrite_isUpdate.exec_mtvec h (.inl rfl) (operand_lt_wordSize s) hbit
  · exact (csrWriteI_isUpdate imm).exec_mtvec h (.inl rfl) (imm_lt_wordSize s imm) hbit
  · simp only [List.forall_mem_cons, List.not_mem_nil, false_imp_iff, implies_true, and_true]
    exact ⟨csrSet_isUpdate.exec_mtvec_uninstalled h hoff, csrClear_isUpdate.exec_mtvec_uninstalled h hoff,
      (csrSetI_isUpdate imm).exec_mtvec_uninstalled h hoff, (csrClearI_isUpdate imm).exec_mtvec_uninstalled h hoff⟩
  · exact csrSet_isUpdate.exec_mtvec_installed h hon
      (Nat.or_lt_two_pow (csrValue_mtvec_lt_wordSize s) (operand_lt_wordSize s))
  · exact (csrSetI_isUpdate imm).exec_mtvec_installed h hon
      (Nat.or_lt_two_pow (csrValue_mtvec_lt_wordSize s) (imm_lt_wordSize s imm))
  · exact csrClear_isUpdate.exec_mtvec_installed h hon (andNot_lt_two_pow (csrValue_mtvec_lt_wordSize s))
  · exact (csrClearI_isUpdate imm).exec_mtvec_installed h hon (andNot_lt_two_pow (csrValue_mtvec_lt_wordSize s))

end Sys2Proof.Proofs.CsrOps
end

section
/-! PROOFS. The timer commands and TICK (41_timer_ops.md): what each answers, stores and leaves as it was, and when a
tick ends a wait. -/

open Sys2Proof Sys2Proof.Machine Sys2Proof.Spec Sys2Proof.Proofs.Encoding Sys2Proof.Proofs.CsrOps

namespace Sys2Proof.Proofs.TimerOps

/-! ## Answers -/

theorem answerOk_eq_of_toNat (s : State) {v : Word} {n : Nat} (h : v.toNat = n) :
    s.answerOk v = { s with outputs := okOutputs n } := by
  rw [← h, State.answerOk, okOutputs, word_toNat]

/-! ## Selectors of the timer space (30_encoding.md R82) -/

theorem selector_eq_timerNumber (r : TimerReg) : r.selector = timerNumber r := by cases r <;> rfl

theorem ofSelector_timerNumber (r : TimerReg) : TimerReg.ofSelector (timerNumber r) = some r := by
  rw [← selector_eq_timerNumber, TimerReg.ofSelector_selector]

theorem namesTimer_of_ne_timerNumber {sel : Selector} (hne : ∀ r, sel ≠ timerNumber r) : namesTimer sel = false := by
  rw [namesTimer_eq_false_iff]
  cases h : TimerReg.ofSelector sel with
  | none => rfl
  | some r => exact absurd ((TimerReg.ofSelector_eq_some h).trans (selector_eq_timerNumber r)) (hne r)

theorem timerNumber_mem_of_writable {r : TimerReg} (h : r.writable = true) :
    (timerNumber r).toNat ∈ [1, 2, 3, 10, 11] := by
  cases r with
  | time | timeLo | timeHi => cases h
  | timecmp | period | last | timecmpLo | timecmpHi => decide

theorem namesWritableTimer_of_not_mem {sel : Selector} (hsel : sel.toNat ∉ [1, 2, 3, 10, 11]) :
    namesWritableTimer sel = false := by
  unfold namesWritableTimer
  cases h : TimerReg.ofSelector sel with
  | none => rfl
  | some r =>
    rw [TimerReg.ofSelector_eq_some h, selector_eq_timerNumber] at hsel
    exact Bool.eq_false_iff.mpr fun hw => hsel (timerNumber_mem_of_writable hw)

/-! ## Reading (41_timer_ops.md R120) -/

theorem lowHalf_setWidth_toNat (v : Word) : ((lowHalf v).setWidth 64).toNat = v.toNat % 2 ^ 32 := by
  rw [BitVec.toNat_setWidth_of_le (by decide), lowHalf_toNat]

theorem highHalf_setWidth_toNat (v : Word) : ((highHalf v).setWidth 64).toNat = v.toNat / 2 ^ 32 := by
  rw [BitVec.toNat_setWidth_of_le (by decide), highHalf_toNat]

theorem tmrReadValue_toNat (s : State) (r : TimerReg) : (tmrReadValue s r).toNat = timerValue s r := by
  cases r with
  | time | timecmp | period | last => rfl
  | timeLo | timecmpLo => exact lowHalf_setWidth_toNat _
  | timeHi | timecmpHi => exact highHalf_setWidth_toNat _

theorem exec_tmrRead (s : State) (r : TimerReg) :
    exec (.tmrRead (timerNumber r)) s = .next { s with outputs := okOutputs (timerValue s r) } := by
  show execTmrRead (timerNumber r) s = _
  rw [execTmrRead, ofSelector_timerNumber, ← answerOk_eq_of_toNat s (tmrReadValue_toNat s r)]

/-- Settles O23: the selector names a register, which `tmrReadValue` reads as the rule does, or none. -/
theorem timerReadAnswersTheRegister : Obligations.TimerReadAnswersTheRegister :=
  ⟨packWord_selector 0x8, exec_tmrRead, fun _ _ hne => execTmrRead_of_unnamed (namesTimer_of_ne_timerNumber hne)⟩

/-! ## Writing (41_timer_ops.md R122) -/

theorem append_eq_word (hi lo : BitVec 32) : hi ++ lo = word (hi.toNat * 2 ^ 32 + lo.toNat) := by
  rw [← word_toNat (hi ++ lo), BitVec.toNat_append, ← Nat.shiftLeft_add_eq_or_of_lt lo.isLt, Nat.shiftLeft_eq]

theorem exec_tmrWrite {s t : State} {r : TimerReg} (h : tmrStore s r = some t) :
    exec (.tmrWrite (timerNumber r)) s = .next { t with outputs := okOutputs 0 } := by
  show execTmrWrite (timerNumber r) s = _
  rw [execTmrWrite, ofSelector_timerNumber, Option.bind_some, h]
  rfl

theorem tmrStore_timecmpLo (s : State) : tmrStore s .timecmpLo =
    some { s with mtimecmp := word (s.mtimecmp.toNat / 2 ^ 32 * 2 ^ 32 + s.wdata.toNat % 2 ^ 32) } := by
  rw [tmrStore, append_eq_word, highHalf_toNat, wdataHalf, lowHalf_toNat]

theorem tmrStore_timecmpHi (s : State) : tmrStore s .timecmpHi =
    some { s with mtimecmp := word (s.wdata.toNat % 2 ^ 32 * 2 ^ 32 + s.mtimecmp.toNat % 2 ^ 32) } := by
  rw [tmrStore, append_eq_word, wdataHalf, lowHalf_toNat, lowHalf_toNat]

/-- Settles O24: a writable register takes the operand, a half of the compare register beside the half it keeps; every
other selector names nothing `TMR_WRITE` may write. -/
theorem timerWriteStoresTheOperand : Obligations.TimerWriteStoresTheOperand :=
  ⟨packWord_selector 0x9, fun s =>
    ⟨exec_tmrWrite (r := .timecmp) rfl, exec_tmrWrite (r := .period) rfl, exec_tmrWrite (r := .last) rfl,
      exec_tmrWrite (tmrStore_timecmpLo s), exec_tmrWrite (tmrStore_timecmpHi s),
      fun _ hsel => execTmrWrite_of_unnamed (namesWritableTimer_of_not_mem hsel)⟩⟩

/-! ## Re-arming (41_timer_ops.md R123) -/

theorem add_eq_word (a b : Word) : a + b = word ((a.toNat + b.toNat) % 2 ^ 64) := by
  rw [← BitVec.toNat_add, word_toNat]

theorem exec_tmrRearm (s : State) : exec .tmrRearm s = .next { s with
    lastTime := s.mtime, mtimecmp := word ((s.mtime.toNat + s.period.toNat) % 2 ^ 64),
    outputs := okOutputs ((s.mtime.toNat + s.period.toNat) % 2 ^ 64) } := by
  show execTmrRearm s = _
  rw [execTmrRearm, answerOk_eq_of_toNat _ (BitVec.toNat_add s.mtime s.period), ← add_eq_word]

/-- The request is down exactly while the deadline lies ahead (41_timer_ops.md R126). -/
theorem mtip_eq_zero_iff (s : State) : mtip s = 0 ↔ s.mtime.toNat < s.mtimecmp.toNat := by
  unfold mtip
  split <;> omega

/-- A sum modulo 2^64 lies above its first term exactly where the second is not 0 and the sum does not wrap. -/
theorem lt_add_mod_iff (a b : Word) :
    a.toNat < (a.toNat + b.toNat) % 2 ^ 64 ↔ b.toNat ≠ 0 ∧ a.toNat + b.toNat < 2 ^ 64 := by
  have ha := a.isLt
  have hb := b.isLt
  omega

/-- Settles O25: the new deadline lies ahead of the counter exactly where the rule says. -/
theorem rearmAddsThePeriodToNow : Obligations.RearmAddsThePeriodToNow := by
  refine ⟨by decide, fun s => ⟨_, exec_tmrRearm s, rfl, ?_⟩⟩
  rw [mtip_eq_zero_iff, ← add_eq_word, BitVec.toNat_add]
  exact lt_add_mod_iff s.mtime s.period

/-! ## Converting a duration (41_timer_ops.md R124) -/

theorem ticksOf_toNat (c : Config) (d : Word) :
    (ticksOf c d).toNat = d.toNat * c.timerHz / c.unitPerSec % 2 ^ 64 := by
  rw [ticksOf, BitVec.toNat_ofNat]

/-- Settles O26: the quotient is of natural numbers, and only the answer is cut to 64 bits. -/
theorem conversionRoundsDown : Obligations.ConversionRoundsDown := by
  refine ⟨by decide, fun s => ?_⟩
  show execTmrConv s = _
  rw [execTmrConv, answerOk_eq_of_toNat s (ticksOf_toNat s.config s.wdata)]

/-! ## The wake condition (10_state.md R42) -/

theorem threeBits_and (a b c a' b' c' : Bool) :
    (2 ^ 11 * a.toNat + 2 ^ 7 * b.toNat + 2 ^ 3 * c.toNat) &&&
        (2 ^ 11 * a'.toNat + 2 ^ 7 * b'.toNat + 2 ^ 3 * c'.toNat) =
      2 ^ 11 * (a && a').toNat + 2 ^ 7 * (b && b').toNat + 2 ^ 3 * (c && c').toNat := by
  revert a b c a' b' c'
  decide

/-- `pend_en` has one bit for each source, at the source's decided number. -/
theorem pendEn_eq (s : State) : pendEn s = 2 ^ 11 * (s.pendEn .external).toNat + 2 ^ 7 * (s.pendEn .timer).toNat +
    2 ^ 3 * (s.pendEn .software).toNat := by
  rw [pendEn, csrValue, csrValue, ← mtip_toNat]
  exact threeBits_and ..

theorem pendEn_ne_zero_iff (s : State) : pendEn s ≠ 0 ↔ s.anyPendEn = true := by
  rw [pendEn_eq, State.anyPendEn]
  cases s.pendEn .external <;> cases s.pendEn .timer <;> cases s.pendEn .software <;> decide

theorem wake_iff (s : State) : s.wake = true ↔ Wake s := by
  unfold State.wake Wake
  split
  · exact (pendEn_ne_zero_iff s).symm
  · rw [State.deliverable, Bool.and_eq_true, pendEn_ne_zero_iff]

/-! ## TICK (41_timer_ops.md R125) -/

theorem tick_eq (s : State) : s.tick = { s with
    mtime := word ((s.mtime.toNat + 1) % 2 ^ 64), outputs := doneOutputs, waiting := s.tick.waiting } := by
  have hmtime : s.tick.mtime = word ((s.mtime.toNat + 1) % 2 ^ 64) := add_eq_word s.mtime 1
  rw [← hmtime]
  rfl

/-- A wait outlasts a tick exactly where the wake condition fails with the new counter. -/
theorem tick_waiting_iff (s : State) : s.tick.waiting = true ↔ s.waiting = true ∧ ¬ Wake s.tick := by
  rw [State.tick_waiting, Bool.and_eq_true, Bool.not_eq_true', ← wake_iff, Bool.not_eq_true]

theorem step_tick {s : State} {rest : List Input} (hflag : s.faultFlag = none) (hinputs : s.inputs = .tick :: rest) :
    step s = .next { s with inputs := rest }.tick := by
  have hnext : nextInput s.waiting s.inputs = some (.tick, rest) := by rw [hinputs, nextInput_other _ _ rfl]
  rw [step_perform hflag hnext, perform]

/-- Settles O27: the step is the tick of the state with the input taken off the list, waiting or not. -/
theorem tickCountsAndMayWake : Obligations.TickCountsAndMayWake :=
  fun _ _ hflag hinputs => ⟨_, step_tick hflag hinputs, tick_eq _, tick_waiting_iff _⟩

end Sys2Proof.Proofs.TimerOps
end

section
/-! PROOFS. The trap dispatcher (42_trap_dispatch.md): where a trap enters, what TRAP_SVC and TRAP_RET do, and two
sequences of trap entry, service and return. -/

open Sys2Proof Sys2Proof.Machine Sys2Proof.Spec Sys2Proof.Proofs.CsrOps

namespace Sys2Proof.Proofs.TrapDispatch

/-! ## Words and their sizes -/

theorem top_eq (s : State) : top s = 2 ^ (xlenBits s.config.xlen - 1) := by
  rw [top, wordSize]
  cases s.config.xlen <;> rfl

theorem lt_top_of_lt_16 (s : State) {n : Nat} (h : n < 16) : n < top s := by
  rw [top_eq]
  cases s.config.xlen <;> simp only [xlenBits] <;> omega

theorem four_dvd_wordSize (s : State) : 4 ∣ wordSize s := by
  rw [wordSize]
  cases s.config.xlen <;> decide

/-- A sum cut to XLEN bits, whether the terms are words or numbers. -/
theorem truncXlen_add_ofNat (x : XLen) (v : Word) (n : Nat) :
    truncXlen x (v + BitVec.ofNat 64 n) = word ((v.toNat + n) % 2 ^ xlenBits x) := by
  have hdvd : 2 ^ xlenBits x ∣ 2 ^ 64 := by cases x <;> decide
  rw [truncXlen_eq_word, BitVec.toNat_add, BitVec.toNat_ofNat, Nat.add_mod_mod, Nat.mod_mod_of_dvd _ hdvd]

theorem portWord_of_lt {s : State} {v : Word} (h : v.toNat < wordSize s) : portWord s v = v := by
  rw [wordSize] at h
  rw [portWord, truncXlen_eq_word, Nat.mod_eq_of_lt h, word_toNat]

theorem portCode_of_lt {s : State} {v : Word} (h : v.toNat < top s) : portCode s v = v := by
  rw [top_eq] at h
  rw [← BitVec.toNat_inj, portCode, causeCode_toNat, Nat.mod_eq_of_lt h]

theorem alignPc_of_aligned {v : Word} (h : v.toNat % 4 = 0) : alignPc v = v := by
  rw [← BitVec.toNat_inj, alignPc_toNat]
  omega

/-- The decided cause code of a source (60_exceptions.md R162). -/
theorem irqCode_toNat {c : Config} (h : Decided c) (k : IrqSource) : (irqCode c k).toNat = causeNumber k := by
  cases k with
  | software => rw [irqCode, irqNumber, h.irqMsi]; rfl
  | timer => rw [irqCode, irqNumber, h.irqMti]; rfl
  | external => rw [irqCode, irqNumber, h.irqMei]; rfl

theorem irqCode_lt_top {s : State} (h : Decided s.config) (k : IrqSource) : (irqCode s.config k).toNat < top s := by
  rw [irqCode_toNat h]
  exact lt_top_of_lt_16 s (by cases k <;> decide)

/-! ## Where a trap enters (42_trap_dispatch.md R143) -/

theorem base_eq_word (s : State) : s.base = word (base s) := by
  rw [← word_toNat s.base, base_toNat, base, wordSize]

theorem mode_of_uninstalled {s : State} (h : s.tvecInstalled = false) : s.mode = .uninstalled := by
  simp [State.mode, h]

theorem getLsbD_zero_iff_vectored (s : State) : s.mtvec.getLsbD 0 = true ↔ vectored s := by
  rw [BitVec.getLsbD, Nat.testBit_zero, decide_eq_true_iff]

theorem mode_of_direct {s : State} (h : s.tvecInstalled = true) (hd : ¬ vectored s) : s.mode = .direct := by
  rw [State.mode, if_pos h, if_neg (mt (getLsbD_zero_iff_vectored s).mp hd)]

theorem mode_of_vectored {s : State} (h : s.tvecInstalled = true) (hv : vectored s) : s.mode = .vectored := by
  rw [State.mode, if_pos h, if_pos ((getLsbD_zero_iff_vectored s).mpr hv)]

theorem baseAligned_of_enterable {s : State} (h : Enterable s) (hv : vectored s) : s.baseAligned = true := by
  rw [State.baseAligned, base_toNat]
  exact beq_iff_eq.mpr (h.2 hv)

theorem trapTarget_of_uninstalled {s : State} (h : s.tvecInstalled = false) (i : Bool) (code : Word) :
    trapTarget i code s = .fault .trapWhileUninstalled := by
  rw [trapTarget, mode_of_uninstalled h]

/-- Direct mode sends every trap to the base. -/
theorem trapTarget_direct {s : State} (h : Enterable s) (hd : ¬ vectored s) (i : Bool) (code : Word) :
    trapTarget i code s = .next (word (base s)) := by
  rw [trapTarget, mode_of_direct h.1 hd, base_eq_word]

/-- An exception goes to the base in either mode. -/
theorem trapTarget_exception {s : State} (h : Enterable s) (code : Word) :
    trapTarget false code s = .next (word (base s)) := by
  by_cases hv : vectored s
  · simp [trapTarget, mode_of_vectored h.1 hv, baseAligned_of_enterable h hv, base_eq_word]
  · exact trapTarget_direct h hv false code

theorem trapTarget_slot {s : State} (h : Enterable s) (hv : vectored s) {code : Word}
    (hslot : code.toNat < s.config.vecSlots) :
    trapTarget true code s = .next (word ((base s + s.config.vecStride * code.toNat) % wordSize s)) := by
  have hbase : s.base.toNat = base s := base_toNat s
  simp [trapTarget, mode_of_vectored h.1 hv, baseAligned_of_enterable h hv, hslot, truncXlen_add_ofNat, hbase,
    wordSize]

theorem trapTarget_without_slot {s : State} (h : Enterable s) (hv : vectored s) {code : Word}
    (hslot : s.config.vecSlots ≤ code.toNat) : trapTarget true code s = .refused .vectorSlotOutOfRange := by
  simp [trapTarget, mode_of_vectored h.1 hv, baseAligned_of_enterable h hv, hslot]

/-- The slot of a source, at the decided stride of 4. -/
theorem trapTarget_source {s : State} (h : Enterable s) (hv : vectored s) (hdec : Decided s.config)
    (hstride : s.config.vecStride = 4) {k : IrqSource} (hslot : causeNumber k < s.config.vecSlots) :
    trapTarget true (irqCode s.config k) s = .next (word ((base s + 4 * causeNumber k) % wordSize s)) := by
  rw [trapTarget_slot h hv (by rwa [irqCode_toNat hdec]), irqCode_toNat hdec, hstride]

/-- Settles O39: the dispatcher's mode decides, and in vectored mode the kind of the trap and whether its code has a
slot. -/
theorem routingTable : Obligations.RoutingTable := by
  intro s code isInterrupt
  refine ⟨fun hoff => trapTarget_of_uninstalled hoff isInterrupt code, fun h =>
    ⟨fun hd => trapTarget_direct h hd isInterrupt code, fun _ => trapTarget_exception h code,
      fun hv hslot => trapTarget_slot h hv hslot, fun hv hslot => trapTarget_without_slot h hv hslot,
      fun hv hdec hstride hslots => ?_⟩⟩
  have hsource : ∀ k, trapTarget true (irqCode s.config k) s =
      .next (word ((base s + 4 * causeNumber k) % wordSize s)) := fun k =>
    trapTarget_source h hv hdec hstride (by rw [hslots]; cases k <;> decide)
  exact ⟨hsource .software, hsource .timer, hsource .external⟩

/-! ## The cause register (10_state.md R31, 42_trap_dispatch.md R141, R142) -/

/-- The cause word a trap entry writes: the kind of the trap in the top bit, over the code. -/
theorem causeWord_eq {s : State} {code : Word} (h : code.toNat < top s) (i : Bool) :
    bitAt i (xlenBits s.config.xlen - 1) ||| code = word (top s * i.toNat + code.toNat) := by
  have hbit : xlenBits s.config.xlen - 1 < 64 := by cases s.config.xlen <;> decide
  rw [top_eq] at h ⊢
  rw [Nat.two_pow_add_eq_or_of_lt h, Nat.mul_comm, ← bitAt_toNat i _ hbit, ← BitVec.toNat_or, word_toNat]

/-- What a trap entry saves and changes, where it has a target (60_exceptions.md R169 step 4). -/
theorem takeTrap_of_target {s : State} {i : Bool} {code pc target : Word} (tval : Word)
    (htarget : trapTarget i code s = .next target) (hcode : code.toNat < top s) (haligned : pc.toNat % 4 = 0) :
    Machine.takeTrap i code pc tval s = .next { s with
      mepc := pc, mcause := word (top s * i.toNat + code.toNat), mtval := tval
      mstatus := { mie := false, mpie := s.mstatus.mie }
      outputs := { resp := some .ok, trapTaken := some true, nextPc := some target } } := by
  have hentered : Machine.takeTrap i code pc tval s = .next (s.enterTrap i code pc tval target) := by
    rw [Machine.takeTrap, htarget]
  rw [hentered, State.enterTrap, causeWord_eq hcode, alignPc_of_aligned haligned]

theorem causeCode_lt_top (s : State) : (causeCode s.config.xlen s.mcause).toNat < top s := by
  rw [causeCode_toNat, top_eq]
  exact Nat.mod_lt _ (Nat.two_pow_pos _)

/-- The cause register is its top bit and its code. -/
theorem csrValue_mcause (s : State) : csrValue s .mcause =
    top s * (topBit s.config.xlen s.mcause).toNat + (causeCode s.config.xlen s.mcause).toNat := by
  have hwidth : wordSize s = 2 ^ (xlenBits s.config.xlen - 1 + 1) := by
    rw [wordSize]
    cases s.config.xlen <;> rfl
  rw [csrValue, hwidth, causeCode_toNat, top_eq, topBit, BitVec.getLsbD, Nat.toNat_testBit, Nat.mod_pow_succ,
    Nat.add_comm]

/-- The saved return address steps over an environment call alone: the cause code 11 without the top bit. -/
theorem causeIsEcall_iff {s : State} (h : Decided s.config) : s.causeIsEcall = true ↔ csrValue s .mcause = 11 := by
  have hcode : causeCode s.config.xlen s.mcause = BitVec.ofNat 64 11 ↔
      (causeCode s.config.xlen s.mcause).toNat = 11 := BitVec.toNat_inj.symm
  have h11 : 11 < top s := lt_top_of_lt_16 s (by decide)
  rw [State.causeIsEcall, decodeCause, h.excEcallM, beq_iff_eq, Prod.mk.injEq, hcode, csrValue_mcause]
  cases topBit s.config.xlen s.mcause with
  | false => simp only [Bool.toNat_false, Nat.mul_zero, Nat.zero_add, true_and]
  | true =>
    simp only [Bool.toNat_true, Nat.mul_one, reduceCtorEq, false_and, false_iff]
    omega

theorem eq_irqCode_iff {c : Config} (h : Decided c) (v : Word) (k : IrqSource) :
    v = irqCode c k ↔ v.toNat = causeNumber k := by
  rw [← BitVec.toNat_inj, irqCode_toNat h]

/-- The variant is a function of the code under a set top bit, and `exception` under a clear one. -/
theorem variant_code {s : State} (h : Decided s.config) : s.variant.code.setWidth 64 = word (variantNumber s) := by
  have hlt := causeCode_lt_top s
  rw [State.variant, variantOf, decodeCause, variantNumber, csrValue_mcause]
  cases topBit s.config.xlen s.mcause with
  | false =>
    rw [Bool.toNat_false, Nat.mul_zero, Nat.zero_add, if_pos hlt]
    rfl
  | true =>
    simp only [eq_irqCode_iff h, causeNumber, Bool.toNat_true, Nat.mul_one, Nat.add_left_cancel_iff,
      Nat.not_lt.mpr (Nat.le_add_right _ _), if_false]
    split_ifs <;> rfl

/-! ## The commands of a handler (42_trap_dispatch.md R145, R146) -/

theorem exec_trapSvc (s : State) :
    exec .trapSvc s = .next ({ s with mepc := servicedEpc s }.answerOk (s.variant.code.setWidth 64)) := rfl

theorem exec_trapRet (s : State) : exec .trapRet s = .next s.returnFromTrap := rfl

theorem csrRead_mepc_eq_word (s : State) : csrRead s .mepc = word (csrValue s .mepc) :=
  alignPc_truncXlen_eq_word s.config.xlen s.mepc

theorem servicedEpc_eq {s : State} (h : Decided s.config) : servicedEpc s =
    if csrValue s .mcause = 11 then word ((csrValue s .mepc + s.config.ilenBytes) % wordSize s) else s.mepc := by
  simp only [servicedEpc, causeIsEcall_iff h, truncXlen_add_ofNat, csrRead_toNat h, wordSize]

/-- Settles O31: the cause and the saved address are read as the rule reads them, and so is the variant. -/
theorem serviceStepsOverOnlyTheEnvironmentCall : Obligations.ServiceStepsOverOnlyTheEnvironmentCall := by
  refine ⟨by decide, fun s h => ?_⟩
  rw [exec_trapSvc, State.answerOk, variant_code h, servicedEpc_eq h, okOutputs]

/-- Settles O32: the return drives the saved address as it reads. -/
theorem returnRestoresTheEnable : Obligations.ReturnRestoresTheEnable := by
  refine ⟨by decide, fun s => ?_⟩
  rw [exec_trapRet, State.returnFromTrap, csrRead_mepc_eq_word]

/-! ## Events (60_exceptions.md R167, R168) -/

theorem excEvent_of_enterable {s : State} {code pc : Word} (tval : Word) (henter : Enterable s)
    (hcode : code.toNat < top s) (haligned : pc.toNat % 4 = 0) (hpc : pc.toNat < wordSize s) :
    excEvent code pc tval s = .next { s with
      mepc := pc, mcause := code, mtval := portWord s tval
      mstatus := { mie := false, mpie := s.mstatus.mie }
      outputs := { resp := some .ok, trapTaken := some true, nextPc := some (word (base s)) } } := by
  rw [excEvent, if_pos ((pcAligned_iff pc).mpr haligned), portCode_of_lt hcode, portWord_of_lt hpc,
    takeTrap_of_target _ (trapTarget_exception henter code) hcode haligned, Bool.toNat_false, Nat.mul_zero,
    Nat.zero_add, word_toNat]

/-- A poll with the global enable 0 takes nothing, whatever is pending. -/
theorem irqPollEvent_disabled {s : State} {pc : Word} (haligned : pc.toNat % 4 = 0) (hmie : s.mstatus.mie = false) :
    irqPollEvent pc s = .next (s.pollNothing (portWord s pc)) := by
  rw [irqPollEvent, if_pos ((pcAligned_iff pc).mpr haligned), State.deliverable, hmie, Bool.false_and]
  exact if_neg Bool.false_ne_true

theorem deliverable_of_firstPending {s : State} {k : IrqSource} (hmie : s.mstatus.mie = true)
    (hfirst : s.firstPending = some k) : s.deliverable = true := by
  have hk : s.pendEn k = true := List.find?_some hfirst
  rw [State.deliverable, hmie, State.anyPendEn]
  cases k <;> simp [hk]

/-- A poll in vectored mode takes the first pending and enabled source, at that source's slot and with its cause. -/
theorem irqPollEvent_vectored {s : State} {pc : Word} {k : IrqSource} (hdec : Decided s.config) (henter : Enterable s)
    (hv : vectored s) (hstride : s.config.vecStride = 4) (hslot : causeNumber k < s.config.vecSlots)
    (haligned : pc.toNat % 4 = 0) (hpc : pc.toNat < wordSize s) (hmie : s.mstatus.mie = true)
    (hfirst : s.firstPending = some k) :
    irqPollEvent pc s = .next { s with
      mepc := pc, mcause := word (top s + causeNumber k), mtval := 0
      mstatus := { mie := false, mpie := s.mstatus.mie }
      outputs := { resp := some .ok, trapTaken := some true
                   nextPc := some (word ((base s + 4 * causeNumber k) % wordSize s)) } } := by
  have htaken : irqPollEvent pc s = Machine.takeTrap true (irqCode s.config k) pc 0 s := by
    rw [irqPollEvent, if_pos ((pcAligned_iff pc).mpr haligned), if_pos (deliverable_of_firstPending hmie hfirst),
      hfirst, portWord_of_lt hpc]
  rw [htaken, takeTrap_of_target _ (trapTarget_source henter hv hdec hstride hslot) (irqCode_lt_top hdec k) haligned,
    irqCode_toNat hdec, Bool.toNat_true, Nat.mul_one]

/-! ## The commands on what an entry saved -/

theorem word_toNat_of_lt {s : State} {n : Nat} (h : n < wordSize s) : (word n).toNat = n := by
  rw [word, BitVec.toNat_ofNat]
  exact Nat.mod_eq_of_lt (h.trans_le (two_pow_xlenBits_le _))

theorem csrValue_mcause_of_eq {s : State} {n : Nat} (h : s.mcause = word n) (hn : n < wordSize s) :
    csrValue s .mcause = n := by
  rw [csrValue, h, word_toNat_of_lt hn, Nat.mod_eq_of_lt hn]

theorem csrValue_mepc_of_eq {s : State} {n : Nat} (h : s.mepc = word n) (hn : n < wordSize s) (haligned : n % 4 = 0) :
    csrValue s .mepc = n := by
  rw [csrValue, h, word_toNat_of_lt hn, Nat.mod_eq_of_lt hn]
  omega

theorem lt_wordSize_of_lt_top {s : State} {n : Nat} (h : n < top s) : n < wordSize s :=
  h.trans_le (Nat.div_le_self _ _)

/-- `TRAP_SVC` where the cause register holds an environment call and the saved address is the pc `n`. -/
theorem exec_trapSvc_environmentCall {s : State} {n : Nat} (hdec : Decided s.config) (hcause : s.mcause = word 11)
    (hmepc : s.mepc = word n) (hn : n < wordSize s) (haligned : n % 4 = 0) :
    exec .trapSvc s = .next { s with
      mepc := word ((n + s.config.ilenBytes) % wordSize s), outputs := okOutputs (variantNumber s) } := by
  have hecall : csrValue s .mcause = 11 :=
    csrValue_mcause_of_eq hcause (lt_wordSize_of_lt_top (lt_top_of_lt_16 s (by decide)))
  rw [serviceStepsOverOnlyTheEnvironmentCall.2 s hdec, if_pos hecall, csrValue_mepc_of_eq hmepc hn haligned]

/-- `TRAP_RET` where the saved address is the pc `n`. -/
theorem exec_trapRet_of_mepc {s : State} {n : Nat} (hmepc : s.mepc = word n) (hn : n < wordSize s)
    (haligned : n % 4 = 0) :
    exec .trapRet s = .next { s with
      mstatus := { mie := s.mstatus.mpie, mpie := true }
      outputs := { resp := some .ok, rdata := some 0, nextPc := some (word n) } } := by
  rw [returnRestoresTheEnable.2 s, csrValue_mepc_of_eq hmepc hn haligned]

/-! ## Steps of a ready block (00_scope.md R12) -/

theorem step_of_ready {s : State} {i : Input} {rest : List Input} (h : Ready s) (hinputs : s.inputs = i :: rest) :
    step s = perform i { s with inputs := rest } := by
  obtain ⟨hflag, hawake⟩ := h
  exact step_perform hflag (by rw [hawake, hinputs, nextInput_awake])

/-- A run of `n` steps and one step more. -/
theorem runSteps_snoc {n : Nat} {s t u : State} (hrun : runSteps n s = .next t) (hstep : step t = .next u) :
    runSteps (n + 1) s = .next u := by
  induction n generalizing s with
  | zero =>
    cases hrun
    rw [runSteps_succ 0 hstep, runSteps_zero]
  | succ n ih =>
    rw [runSteps] at hrun ⊢
    cases hs : step s with
    | next v => exact ih (by simpa only [hs] using hrun)
    | fault f => simp [hs] at hrun
    | refused r => simp [hs] at hrun

theorem step_command {s : State} {w : CommandWord} {d : Word} {rest : List Input} {i : Instr} (h : Ready s)
    (hinputs : s.inputs = .command w d :: rest) (hdecode : decode w = .ok i) :
    step s = exec i { s with inputs := rest, wdata := d } := by
  rw [step_of_ready h hinputs, perform, performCommand, hdecode]

theorem step_trapSvc_environmentCall {s : State} {d : Word} {rest : List Input} {n : Nat} (h : Ready s)
    (hinputs : s.inputs = .command trapSvcWord d :: rest) (hdec : Decided s.config) (hcause : s.mcause = word 11)
    (hmepc : s.mepc = word n) (hn : n < wordSize s) (haligned : n % 4 = 0) :
    step s = .next { s with
      inputs := rest, wdata := d, mepc := word ((n + s.config.ilenBytes) % wordSize s)
      outputs := okOutputs (variantNumber s) } :=
  (step_command h hinputs (by decide)).trans
    (exec_trapSvc_environmentCall (s := { s with inputs := rest, wdata := d }) hdec hcause hmepc hn haligned)

theorem step_trapRet {s : State} {d : Word} {rest : List Input} {n : Nat} (h : Ready s)
    (hinputs : s.inputs = .command trapRetWord d :: rest) (hmepc : s.mepc = word n) (hn : n < wordSize s)
    (haligned : n % 4 = 0) :
    step s = .next { s with
      inputs := rest, wdata := d, mstatus := { mie := s.mstatus.mpie, mpie := true }
      outputs := { resp := some .ok, rdata := some 0, nextPc := some (word n) } } :=
  (step_command h hinputs (by decide)).trans
    (exec_trapRet_of_mepc (s := { s with inputs := rest, wdata := d }) hmepc hn haligned)

/-- A level change in a block that does not wait. -/
theorem step_pin {s : State} {msip meip : Bool} {rest : List Input} (h : Ready s)
    (hinputs : s.inputs = .pin msip meip :: rest) :
    step s = .next { s with inputs := rest, msipIn := msip, meipIn := meip, outputs := doneOutputs } := by
  rw [step_of_ready h hinputs, perform, State.drivePins, State.wakeIfReady]
  simp only [h.2, Bool.false_and, doneOutputs]

theorem step_exc {s : State} {code pc tval : Word} {rest : List Input} (h : Ready s)
    (hinputs : s.inputs = .exc code pc tval :: rest) (henter : Enterable s) (hcode : code.toNat < top s)
    (haligned : pc.toNat % 4 = 0) (hpc : pc.toNat < wordSize s) :
    step s = .next { s with
      inputs := rest, mepc := pc, mcause := code, mtval := portWord s tval
      mstatus := { mie := false, mpie := s.mstatus.mie }
      outputs := { resp := some .ok, trapTaken := some true, nextPc := some (word (base s)) } } :=
  (step_of_ready h hinputs).trans
    (excEvent_of_enterable (s := { s with inputs := rest }) tval henter hcode haligned hpc)

theorem step_irqPoll_disabled {s : State} {pc : Word} {rest : List Input} (h : Ready s)
    (hinputs : s.inputs = .irqPoll pc :: rest) (haligned : pc.toNat % 4 = 0) (hmie : s.mstatus.mie = false) :
    step s = .next ({ s with inputs := rest }.pollNothing (portWord s pc)) :=
  (step_of_ready h hinputs).trans (irqPollEvent_disabled (s := { s with inputs := rest }) haligned hmie)

theorem step_irqPoll_vectored {s : State} {pc : Word} {rest : List Input} {k : IrqSource} (h : Ready s)
    (hinputs : s.inputs = .irqPoll pc :: rest) (hdec : Decided s.config) (henter : Enterable s) (hv : vectored s)
    (hstride : s.config.vecStride = 4) (hslot : causeNumber k < s.config.vecSlots)
    (haligned : pc.toNat % 4 = 0) (hpc : pc.toNat < wordSize s) (hmie : s.mstatus.mie = true)
    (hfirst : s.firstPending = some k) :
    step s = .next { s with
      inputs := rest, mepc := pc, mcause := word (top s + causeNumber k), mtval := 0
      mstatus := { mie := false, mpie := s.mstatus.mie }
      outputs := { resp := some .ok, trapTaken := some true
                   nextPc := some (word ((base s + 4 * causeNumber k) % wordSize s)) } } :=
  (step_of_ready h hinputs).trans
    (irqPollEvent_vectored (s := { s with inputs := rest }) hdec henter hv hstride hslot haligned hpc hmie hfirst)

/-! ## An environment call and its return (42_trap_dispatch.md R151) -/

/-- The instruction after one at a pc is at a pc. -/
theorem add_four_mod_wordSize_aligned (s : State) {n : Nat} (h : n % 4 = 0) : (n + 4) % wordSize s % 4 = 0 := by
  rw [Nat.mod_mod_of_dvd _ (four_dvd_wordSize s)]
  omega

/-- Settles O44: the entry saves p and the cause 11, so the service adds 4, and the return drives the sum. -/
theorem environmentCallResumesAtTheNextInstruction : Obligations.EnvironmentCallResumesAtTheNextInstruction := by
  intro s p tval d e rest hready hdec henter hilen haligned hp hinputs
  have hentry : runSteps 1 s = .next _ := runSteps_snoc (runSteps_zero s)
    (step_exc hready hinputs henter (lt_top_of_lt_16 s (by decide)) haligned hp)
  have hservice : runSteps 2 s = .next _ := runSteps_snoc hentry
    (step_trapSvc_environmentCall hready rfl hdec rfl (word_toNat p).symm hp haligned)
  have hsum : (p.toNat + s.config.ilenBytes) % wordSize s < wordSize s := Nat.mod_lt _ (Nat.two_pow_pos _)
  have hsum_aligned : (p.toNat + s.config.ilenBytes) % wordSize s % 4 = 0 := by
    rw [hilen]
    exact add_four_mod_wordSize_aligned s haligned
  have hreturn : runSteps 3 s = .next _ := runSteps_snoc hservice (step_trapRet hready rfl rfl hsum hsum_aligned)
  rw [← hilen]
  exact ⟨_, _, _, hentry, rfl, hservice, rfl, hreturn, rfl, rfl, rfl⟩

/-! ## Two interrupts at once (42_trap_dispatch.md R152) -/

section
variable {s : State} (hprio : s.config.irqPrio = [.external, .software, .timer])
include hprio

theorem firstPending_external (hlevel : s.meipIn = true) (henable : s.mie.meie = true) :
    s.firstPending = some .external := by
  have hpend : s.pendEn .external = true := Bool.and_eq_true_iff.mpr ⟨hlevel, henable⟩
  rw [State.firstPending, hprio, List.find?_cons_of_pos hpend]

theorem firstPending_timer (hmeip : s.meipIn = false) (hmsip : s.msipIn = false) (hlevel : mtip s = 1)
    (henable : s.mie.mtie = true) : s.firstPending = some .timer := by
  have hexternal : ¬ s.pendEn .external = true := by simp [State.pendEn, State.pending, hmeip]
  have hsoftware : ¬ s.pendEn .software = true := by simp [State.pendEn, State.pending, hmsip]
  have hmtip : s.mtip = true := by rwa [← mtip_toNat, Bool.toNat_eq_one] at hlevel
  have hpend : s.pendEn .timer = true := Bool.and_eq_true_iff.mpr ⟨hmtip, henable⟩
  rw [State.firstPending, hprio, List.find?_cons_of_neg hexternal, List.find?_cons_of_neg hsoftware,
    List.find?_cons_of_pos hpend]

end

/-- From inside a handler: a poll takes nothing, the levels fall, and the return restores the global enable. -/
theorem runSteps_handler {m n : Nat} {s₀ s : State} {q d : Word} {rest : List Input}
    (hrun : runSteps m s₀ = .next s) (h : Ready s)
    (hinputs : s.inputs = .irqPoll q :: .pin false false :: .command trapRetWord d :: rest) (hq : q.toNat % 4 = 0)
    (hmie : s.mstatus.mie = false) (hmepc : s.mepc = word n) (hn : n < wordSize s) (haligned : n % 4 = 0) :
    ∃ b c, runSteps (m + 1) s₀ = .next b ∧ b.outputs.trapTaken = some false ∧ runSteps (m + 3) s₀ = .next c ∧
      c = { s with
        inputs := rest, wdata := d, msipIn := false, meipIn := false
        mstatus := { mie := s.mstatus.mpie, mpie := true }
        outputs := { resp := some .ok, rdata := some 0, nextPc := some (word n) } } := by
  have hpoll : runSteps (m + 1) s₀ = .next _ := runSteps_snoc hrun (step_irqPoll_disabled h hinputs hq hmie)
  have hfall : runSteps (m + 2) s₀ = .next _ := runSteps_snoc hpoll (step_pin h rfl)
  have hreturn : runSteps (m + 3) s₀ = .next _ := runSteps_snoc hfall (step_trapRet h rfl hmepc hn haligned)
  exact ⟨_, _, hpoll, rfl, hreturn, rfl⟩

/-- Settles O45: each poll that takes a trap enters the slot of the source it takes: the external one first, and the
timer one once the levels have fallen and the return has set the global enable again. -/
theorem simultaneousInterruptsUseTheirOwnSlots : Obligations.SimultaneousInterruptsUseTheirOwnSlots := by
  intro s p q d rest hready hdec henter hv hprio hstride hslots hpa hp hqa hmie hmeie hmtie hmeip hmtip hinputs
  have hexternal : runSteps 1 s = .next _ := runSteps_snoc (runSteps_zero s)
    (step_irqPoll_vectored (k := .external) hready hinputs hdec henter hv hstride hslots hpa hp hmie
      (firstPending_external hprio hmeip hmeie))
  obtain ⟨b, c, hmasked, hnone, hreturn, rfl⟩ :=
    runSteps_handler hexternal hready rfl hqa rfl (word_toNat p).symm hp hpa
  have htimer : runSteps 5 s = .next _ := runSteps_snoc hreturn
    (step_irqPoll_vectored (k := .timer) hready rfl hdec henter hv hstride (Nat.lt_trans (by decide) hslots) hpa hp
      hmie (firstPending_timer hprio rfl rfl hmtip hmtie))
  exact ⟨_, b, _, _, hexternal, rfl, rfl, hmasked, hnone, hreturn, congrArg some (word_toNat p), hmie, htimer, rfl, rfl,
    rfl⟩

end Sys2Proof.Proofs.TrapDispatch
end

section
/-! PROOFS. The events of 60_exceptions.md: EXC and IRQ_POLL, which enter traps by one sequence, and PIN, which drives
the two levels. -/

open Sys2Proof Sys2Proof.Machine Sys2Proof.Spec Sys2Proof.Proofs.CsrOps Sys2Proof.Proofs.TimerOps
  Sys2Proof.Proofs.TrapDispatch

namespace Sys2Proof.Proofs.Exceptions

/-! ## Trap entry (60_exceptions.md R169) -/

/-- Step 2: in vectored mode a table that is not aligned has no target. -/
theorem trapTarget_of_misaligned {s : State} (hinstalled : s.tvecInstalled = true) (hv : vectored s)
    (hbase : base s % s.config.vecAlign ≠ 0) (i : Bool) (code : Word) :
    trapTarget i code s = .fault .misalignedVectorBase := by
  have hunaligned : ¬ s.baseAligned = true := by
    rw [State.baseAligned, base_toNat, beq_iff_eq]
    exact hbase
  simp only [trapTarget, mode_of_vectored hinstalled hv, if_neg hunaligned]

/-- Past steps 1 to 3 the target is the rule's. -/
theorem trapTarget_eq_target {s : State} (h : Enterable s) {i : Bool} {code : Word}
    (hslot : ¬ (vectored s ∧ i = true ∧ s.config.vecSlots ≤ code.toNat)) :
    trapTarget i code s = .next (word (target i code.toNat s)) := by
  by_cases htable : vectored s ∧ i = true
  · obtain ⟨hv, rfl⟩ := htable
    have hlt : code.toNat < s.config.vecSlots := Nat.lt_of_not_le fun hle => hslot ⟨hv, rfl, hle⟩
    rw [trapTarget_slot h hv hlt, target, if_pos ⟨hv, rfl⟩]
  · rw [target, if_neg htable]
    cases i with
    | false => exact trapTarget_exception h code
    | true => exact trapTarget_direct h (fun hv => htable ⟨hv, rfl⟩) true code

/-- The model's entry is the rule's `take_trap`, by the rule's steps in order. -/
theorem takeTrap_eq_spec {s : State} {i : Bool} {code pc : Word} (tval : Word) (hcode : code.toNat < top s)
    (haligned : pc.toNat % 4 = 0) :
    Machine.takeTrap i code pc tval s = Spec.takeTrap i code.toNat pc.toNat tval.toNat s := by
  by_cases hoff : s.tvecInstalled = false
  · rw [Spec.takeTrap, if_pos hoff, Machine.takeTrap, trapTarget_of_uninstalled hoff]
  have hinstalled : s.tvecInstalled = true := Bool.eq_true_of_not_eq_false hoff
  rw [Spec.takeTrap, if_neg hoff]
  by_cases hbase : vectored s ∧ base s % s.config.vecAlign ≠ 0
  · rw [if_pos hbase, Machine.takeTrap, trapTarget_of_misaligned hinstalled hbase.1 hbase.2]
  have henter : Enterable s := ⟨hinstalled, fun hv => not_not.mp fun hne => hbase ⟨hv, hne⟩⟩
  rw [if_neg hbase]
  by_cases hslot : vectored s ∧ i = true ∧ s.config.vecSlots ≤ code.toNat
  · obtain ⟨hv, rfl, hslots⟩ := hslot
    rw [if_pos ⟨hv, rfl, hslots⟩, Machine.takeTrap, trapTarget_without_slot henter hv hslots]
  have hpc : pc.toNat / 4 * 4 = pc.toNat := Nat.div_mul_cancel (Nat.dvd_of_mod_eq_zero haligned)
  rw [if_neg hslot, takeTrap_of_target tval (trapTarget_eq_target henter hslot) hcode haligned, hpc, word_toNat,
    word_toNat]

/-! ## EXC (60_exceptions.md R168) -/

theorem excEvent_misaligned {pc : Word} (h : pc.toNat % 4 ≠ 0) (code tval : Word) (s : State) :
    excEvent code pc tval s = .refused .misalignedPc := by
  rw [excEvent, if_neg (mt (pcAligned_iff pc).mp h)]

/-- No condition on the enables: exceptions cannot be masked. -/
theorem excEvent_eq_spec {s : State} {code pc tval : Word} (haligned : pc.toNat % 4 = 0) (hcode : code.toNat < top s)
    (hpc : pc.toNat < wordSize s) (htval : tval.toNat < wordSize s) :
    excEvent code pc tval s = Spec.takeTrap false code.toNat pc.toNat tval.toNat s := by
  rw [excEvent, if_pos ((pcAligned_iff pc).mpr haligned), portCode_of_lt hcode, portWord_of_lt hpc,
    portWord_of_lt htval, takeTrap_eq_spec tval hcode haligned]

/-- Settles O36: the ports carry the three values as they are, and the entry is the rule's. -/
theorem exceptionEntersTheTrap : Obligations.ExceptionEntersTheTrap := by
  intro s code pc tval rest hready hinputs
  rw [step_of_ready hready hinputs, perform]
  exact ⟨fun h => excEvent_misaligned h code tval _,
    fun haligned hcode hpc htval => excEvent_eq_spec (s := { s with inputs := rest }) haligned hcode hpc htval⟩

/-! ## IRQ_POLL (60_exceptions.md R167) -/

/-- `pend_en` holds the request of a source at the bit of its decided number. -/
theorem testBit_pendEn (s : State) (k : IrqSource) : (pendEn s).testBit (causeNumber k) = s.pendEn k := by
  have hbits : ∀ e t m : Bool, (2 ^ 11 * e.toNat + 2 ^ 7 * t.toNat + 2 ^ 3 * m.toNat).testBit 11 = e ∧
      (2 ^ 11 * e.toNat + 2 ^ 7 * t.toNat + 2 ^ 3 * m.toNat).testBit 7 = t ∧
      (2 ^ 11 * e.toNat + 2 ^ 7 * t.toNat + 2 ^ 3 * m.toNat).testBit 3 = m := by decide
  obtain ⟨hexternal, htimer, hsoftware⟩ := hbits (s.pendEn .external) (s.pendEn .timer) (s.pendEn .software)
  rw [pendEn_eq]
  cases k with
  | software => exact hsoftware
  | timer => exact htimer
  | external => exact hexternal

theorem deliverable_iff (s : State) : s.deliverable = true ↔ s.mstatus.mie = true ∧ pendEn s ≠ 0 := by
  rw [State.deliverable, Bool.and_eq_true, pendEn_ne_zero_iff]

/-- The first source of IRQ_PRIO that is pending and enabled, by its place in the list. -/
theorem firstPending_of_irqPrio {s : State} {before after : List IrqSource} {k : IrqSource}
    (hprio : s.config.irqPrio = before ++ k :: after) (hk : s.pendEn k = true)
    (hbefore : ∀ j ∈ before, s.pendEn j = false) : s.firstPending = some k :=
  List.find?_eq_some_iff_append.mpr ⟨hk, before, after, hprio, fun j hj => by rw [hbefore j hj, Bool.not_false]⟩

theorem irqPollEvent_misaligned {pc : Word} (h : pc.toNat % 4 ≠ 0) (s : State) :
    irqPollEvent pc s = .refused .misalignedPc := by
  rw [irqPollEvent, if_neg (mt (pcAligned_iff pc).mp h)]

/-- A poll with the global enable 1 takes the first pending and enabled source, with its cause and trap value 0. -/
theorem irqPollEvent_eq_spec {s : State} {pc : Word} {k : IrqSource} (hdec : Decided s.config)
    (haligned : pc.toNat % 4 = 0) (hpc : pc.toNat < wordSize s) (hmie : s.mstatus.mie = true)
    (hfirst : s.firstPending = some k) :
    irqPollEvent pc s = Spec.takeTrap true (causeNumber k) pc.toNat 0 s := by
  have htaken : irqPollEvent pc s = Machine.takeTrap true (irqCode s.config k) pc 0 s := by
    rw [irqPollEvent, if_pos ((pcAligned_iff pc).mpr haligned), if_pos (deliverable_of_firstPending hmie hfirst),
      hfirst, portWord_of_lt hpc]
  rw [htaken, takeTrap_eq_spec 0 (irqCode_lt_top hdec k) haligned, irqCode_toNat hdec]
  rfl

/-- A poll with nothing deliverable takes nothing. -/
theorem irqPollEvent_of_not_deliverable {s : State} {pc : Word} (haligned : pc.toNat % 4 = 0)
    (hpc : pc.toNat < wordSize s) (hnone : s.mstatus.mie = false ∨ pendEn s = 0) :
    irqPollEvent pc s = .next (s.pollNothing pc) := by
  have hnot : ¬ s.deliverable = true := by
    rw [deliverable_iff, not_and_or, Bool.not_eq_true, not_not]
    exact hnone
  rw [irqPollEvent, if_pos ((pcAligned_iff pc).mpr haligned), if_neg hnot, portWord_of_lt hpc]

/-- Settles O37: the bits of `pend_en` are the requests of the sources, so the source the rule names is the first the
poll finds. -/
theorem pollTakesTheFirstDeliverable : Obligations.PollTakesTheFirstDeliverable := by
  intro s pc rest hready hdec hinputs
  rw [step_of_ready hready hinputs, perform]
  refine ⟨fun h => irqPollEvent_misaligned h _, fun haligned hpc =>
    ⟨fun before k after hprio hmie hk hbefore => ?_, fun hnone =>
      irqPollEvent_of_not_deliverable (s := { s with inputs := rest }) haligned hpc hnone⟩⟩
  have hfirst : s.firstPending = some k := firstPending_of_irqPrio hprio ((testBit_pendEn s k).symm.trans hk)
    fun j hj => (testBit_pendEn s j).symm.trans (hbefore j hj)
  exact irqPollEvent_eq_spec (s := { s with inputs := rest }) hdec haligned hpc hmie hfirst

/-! ## PIN (60_exceptions.md R179) -/

/-- PIN is the platform's, so it is performed whether the block waits or not. -/
theorem step_drivePins {s : State} {msip meip : Bool} {rest : List Input} (hflag : s.faultFlag = none)
    (hinputs : s.inputs = .pin msip meip :: rest) :
    step s = .next ({ s with inputs := rest }.drivePins msip meip) := by
  have hnext : nextInput s.waiting s.inputs = some (.pin msip meip, rest) := by rw [hinputs, nextInput_other _ _ rfl]
  rw [step_perform hflag hnext, perform]

/-- What a level change writes, beside the wait it may end. -/
theorem drivePins_eq (s : State) (msip meip : Bool) : s.drivePins msip meip = { s with
    msipIn := msip, meipIn := meip, outputs := doneOutputs, waiting := (s.drivePins msip meip).waiting } := rfl

/-- A wait outlasts a level change exactly where the wake condition fails with the new levels. -/
theorem drivePins_waiting_iff (s : State) (msip meip : Bool) :
    (s.drivePins msip meip).waiting = true ↔ s.waiting = true ∧ ¬ Wake (s.drivePins msip meip) := by
  rw [State.drivePins_waiting, Bool.and_eq_true, Bool.not_eq_true', ← wake_iff, Bool.not_eq_true]

/-- Settles O48: the step is the level change of the state with the input taken off the list, waiting or not. -/
theorem pinDrivesTheLevels : Obligations.PinDrivesTheLevels :=
  fun _ msip meip _ hflag hinputs =>
    ⟨_, step_drivePins hflag hinputs, drivePins_eq _ msip meip, drivePins_waiting_iff _ msip meip⟩

end Sys2Proof.Proofs.Exceptions
end

section
/-! PROOFS. The encoder and the decoder are inverse (30_encoding.md R80, R81, R95): each field of a packed word is the
field it was packed from, and a word is packed from its fields. -/

open Sys2Proof Sys2Proof.Machine Sys2Proof.Spec Sys2Proof.Proofs.Encoding

namespace Sys2Proof.Proofs.EncodeDecode

/-! ## The fields of a packed word (30_encoding.md R80) -/

theorem packWord_toNat (op : BitVec 4) (imm : Imm5) (sel : Selector) :
    (packWord op imm sel).toNat = op.toNat * 2 ^ 28 + imm.toNat * 2 ^ 12 + sel.toNat := by
  have hop := op.isLt
  have himm := imm.isLt
  have hsel := sel.isLt
  have hshift : ∀ n k m : Nat, m < 2 ^ k → n <<< k ||| m = n * 2 ^ k + m := fun n k m h => by
    rw [← Nat.shiftLeft_add_eq_or_of_lt h, Nat.shiftLeft_eq]
  have hlow : (imm.setWidth 32 <<< 12 ||| sel.setWidth 32 : CommandWord).toNat = imm.toNat * 2 ^ 12 + sel.toNat := by
    simp only [BitVec.toNat_or, BitVec.toNat_shiftLeft, BitVec.toNat_setWidth]
    rw [Nat.mod_eq_of_lt (by omega), Nat.mod_eq_of_lt (by omega), Nat.mod_eq_of_lt (by omega), hshift _ _ _ hsel]
  have hhigh : (op.setWidth 32 <<< 28 : CommandWord).toNat = op.toNat <<< 28 := by
    simp only [BitVec.toNat_shiftLeft, BitVec.toNat_setWidth]
    omega
  rw [packWord, BitVec.or_assoc, BitVec.toNat_or, hlow, hhigh, hshift _ _ _ (by omega), Nat.add_assoc]

section
variable (op : BitVec 4) (imm : Imm5) (sel : Selector)

theorem opField_packWord : (opField (packWord op imm sel)).toNat = op.toNat := by
  have := op.isLt
  have := imm.isLt
  have := sel.isLt
  rw [opField_toNat, packWord_toNat]
  omega

theorem zeroField_packWord : zeroField (packWord op imm sel) = 0 := by
  have := imm.isLt
  have := sel.isLt
  rw [zeroField_eq_zero_iff, packWord_toNat]
  omega

theorem immField_packWord : immField (packWord op imm sel) = imm := by
  have := imm.isLt
  have := sel.isLt
  rw [immField_eq, ← BitVec.toNat_inj, BitVec.toNat_ofNat, packWord_toNat]
  omega

theorem selField_packWord : selField (packWord op imm sel) = sel := by
  have := sel.isLt
  rw [selField_eq, ← BitVec.toNat_inj, BitVec.toNat_ofNat, packWord_toNat]
  omega

end

/-- A word whose field `zero` is 0 is packed from its other three fields. -/
theorem packWord_fields {w : CommandWord} (hz : zeroField w = 0) :
    packWord (opField w) (immField w) (selField w) = w := by
  have hw := w.isLt
  have hzero := (zeroField_eq_zero_iff w).mp hz
  rw [← BitVec.toNat_inj, packWord_toNat, opField_toNat, immField_eq, selField_eq, BitVec.toNat_ofNat,
    BitVec.toNat_ofNat]
  omega

/-! ## Decoding a packed word, by the form of its command -/

theorem decode_packWord_selector (op : BitVec 4) (sel : Selector) {command : Selector → Instr}
    (hop : ∀ {w : CommandWord}, zeroField w = 0 → (opField w).toNat = op.toNat →
      decode w = selectorForm w (command (selField w))) :
    decode (packWord op 0 sel) = .ok (command sel) := by
  rw [hop (zeroField_packWord ..) (opField_packWord ..), selectorForm, if_pos (immField_packWord ..),
    selField_packWord]

theorem decode_packWord_immediate (op : BitVec 4) (imm : Imm5) (sel : Selector) {command : Selector → Imm5 → Instr}
    (hop : ∀ {w : CommandWord}, zeroField w = 0 → (opField w).toNat = op.toNat →
      decode w = .ok (command (selField w) (immField w))) :
    decode (packWord op imm sel) = .ok (command sel imm) := by
  rw [hop (zeroField_packWord ..) (opField_packWord ..), selField_packWord, immField_packWord]

theorem decode_packWord_bare (op : BitVec 4) {command : Instr}
    (hop : ∀ {w : CommandWord}, zeroField w = 0 → (opField w).toNat = op.toNat → decode w = bareForm w command) :
    decode (packWord op 0 0) = .ok command := by
  rw [hop (zeroField_packWord ..) (opField_packWord ..), bareForm, if_pos (immField_packWord ..),
    if_pos (selField_packWord ..)]

/-- Settles O1, command by command: the packed word has the command's `op` and 0 in every field the command lacks. -/
theorem decodeOfEncodeIsTheCommand : Obligations.DecodeOfEncodeIsTheCommand := by
  intro i
  cases i with
  | csrRead sel => exact decode_packWord_selector 0x0 sel decode_csrRead
  | csrWrite sel => exact decode_packWord_selector 0x1 sel decode_csrWrite
  | csrSet sel => exact decode_packWord_selector 0x2 sel decode_csrSet
  | csrClear sel => exact decode_packWord_selector 0x3 sel decode_csrClear
  | csrWriteI sel imm => exact decode_packWord_immediate 0x5 imm sel decode_csrWriteI
  | csrSetI sel imm => exact decode_packWord_immediate 0x6 imm sel decode_csrSetI
  | csrClearI sel imm => exact decode_packWord_immediate 0x7 imm sel decode_csrClearI
  | tmrRead sel => exact decode_packWord_selector 0x8 sel decode_tmrRead
  | tmrWrite sel => exact decode_packWord_selector 0x9 sel decode_tmrWrite
  | tmrRearm => exact decode_packWord_bare 0xA decode_tmrRearm
  | tmrConv => exact decode_packWord_bare 0xB decode_tmrConv
  | trapRet => exact decode_packWord_bare 0xC decode_trapRet
  | trapSvc => exact decode_packWord_bare 0xD decode_trapSvc
  | wait => exact decode_packWord_bare 0xE decode_wait

/-! ## Encoding a decoded word, by the form of its command -/

theorem selectorForm_eq_ok {w : CommandWord} {i j : Instr} (h : selectorForm w i = .ok j) : immField w = 0 ∧ i = j := by
  have himm : immField w = 0 := (selectorForm_ok_iff w i).mp ⟨j, h⟩
  rw [selectorForm, if_pos himm] at h
  exact ⟨himm, Except.ok.inj h⟩

theorem bareForm_eq_ok {w : CommandWord} {i j : Instr} (h : bareForm w i = .ok j) :
    immField w = 0 ∧ selField w = 0 ∧ i = j := by
  obtain ⟨himm, hsel⟩ := (bareForm_ok_iff w i).mp ⟨j, h⟩
  rw [bareForm, if_pos himm, if_pos hsel] at h
  exact ⟨himm, hsel, Except.ok.inj h⟩

section
variable {w : CommandWord} {i : Instr} (h : decode w = .ok i) (hz : zeroField w = 0) {op : BitVec 4}
  (ho : (opField w).toNat = op.toNat)
include h hz ho

theorem encode_of_selectorForm {command : Selector → Instr} (hencode : ∀ sel, encode (command sel) = packWord op 0 sel)
    (hop : zeroField w = 0 → (opField w).toNat = op.toNat → decode w = selectorForm w (command (selField w))) :
    encode i = w := by
  obtain ⟨himm, rfl⟩ := selectorForm_eq_ok ((hop hz ho).symm.trans h)
  rw [hencode, ← BitVec.eq_of_toNat_eq ho, ← himm, packWord_fields hz]

theorem encode_of_immediateForm {command : Selector → Imm5 → Instr}
    (hencode : ∀ sel imm, encode (command sel imm) = packWord op imm sel)
    (hop : zeroField w = 0 → (opField w).toNat = op.toNat → decode w = .ok (command (selField w) (immField w))) :
    encode i = w := by
  cases (hop hz ho).symm.trans h
  rw [hencode, ← BitVec.eq_of_toNat_eq ho, packWord_fields hz]

theorem encode_of_bareForm {command : Instr} (hencode : encode command = packWord op 0 0)
    (hop : zeroField w = 0 → (opField w).toNat = op.toNat → decode w = bareForm w command) : encode i = w := by
  obtain ⟨himm, hsel, rfl⟩ := bareForm_eq_ok ((hop hz ho).symm.trans h)
  have hword := packWord_fields hz
  rwa [himm, hsel, BitVec.eq_of_toNat_eq ho, ← hencode] at hword

end

/-- Settles O2, `op` by `op`: a word that decodes has 0 in every field its command lacks, so it is packed from the
command. -/
theorem encodeOfDecodeIsTheWord : Obligations.EncodeOfDecodeIsTheWord := by
  intro w i h
  have hz : zeroField w = 0 := by
    by_contra hz
    rw [decode_of_zeroField_ne hz] at h
    cases h
  have hlt := (opField w).isLt
  generalize hop : (opField w).toNat = op at hlt
  have hreserved : op ≠ 4 ∧ op ≠ 15 := by
    rw [← hop, ← not_or]
    intro ho
    rw [decode_reservedOp hz ho] at h
    cases h
  obtain ⟨h4, h15⟩ := hreserved
  interval_cases op
  · exact encode_of_selectorForm (op := 0x0) h hz hop (fun _ => rfl) decode_csrRead
  · exact encode_of_selectorForm (op := 0x1) h hz hop (fun _ => rfl) decode_csrWrite
  · exact encode_of_selectorForm (op := 0x2) h hz hop (fun _ => rfl) decode_csrSet
  · exact encode_of_selectorForm (op := 0x3) h hz hop (fun _ => rfl) decode_csrClear
  · exact absurd rfl h4
  · exact encode_of_immediateForm (op := 0x5) h hz hop (fun _ _ => rfl) decode_csrWriteI
  · exact encode_of_immediateForm (op := 0x6) h hz hop (fun _ _ => rfl) decode_csrSetI
  · exact encode_of_immediateForm (op := 0x7) h hz hop (fun _ _ => rfl) decode_csrClearI
  · exact encode_of_selectorForm (op := 0x8) h hz hop (fun _ => rfl) decode_tmrRead
  · exact encode_of_selectorForm (op := 0x9) h hz hop (fun _ => rfl) decode_tmrWrite
  · exact encode_of_bareForm (op := 0xA) h hz hop rfl decode_tmrRearm
  · exact encode_of_bareForm (op := 0xB) h hz hop rfl decode_tmrConv
  · exact encode_of_bareForm (op := 0xC) h hz hop rfl decode_trapRet
  · exact encode_of_bareForm (op := 0xD) h hz hop rfl decode_trapSvc
  · exact encode_of_bareForm (op := 0xE) h hz hop rfl decode_wait
  · exact absurd rfl h15

/-- Settles O5: six words run through the decoder. -/
theorem sampleWordsDecode : Obligations.SampleWordsDecode := by
  unfold Obligations.SampleWordsDecode
  decide

end Sys2Proof.Proofs.EncodeDecode
end

section
/-! PROOFS. What one step can do, said once: the effect of a command and of an input, and from it what each agent leaves
alone (10_state.md R44, R45), where traps and faults come from (60_exceptions.md R160, R169), and what only RESET undoes
(10_state.md R29). -/

open Sys2Proof Sys2Proof.Machine Sys2Proof.Spec Sys2Proof.Proofs.Encoding Sys2Proof.Proofs.TrapDispatch

namespace Sys2Proof.Proofs.StepEffects

/-! ## Storing (40_csr_ops.md R102, 41_timer_ops.md R122) -/

/-- The seven CSRs are the trap registers, the two enables and whether mtvec is installed. -/
theorem csrStore_frame {full : Bool} {r : Csr} {new : Word} {s t : State} (h : csrStore full r new s = .next t) :
    t = { s with
      mstatus := t.mstatus, mie := t.mie, mtvec := t.mtvec, tvecInstalled := t.tvecInstalled, mepc := t.mepc,
      mcause := t.mcause, mtval := t.mtval } := by
  rcases csrStore_next h with ⟨-, rfl⟩ | ⟨-, rfl⟩ | ⟨-, -, rfl⟩ | ⟨-, -, -, rfl⟩ | ⟨-, rfl⟩ | ⟨-, rfl⟩ | ⟨-, rfl⟩ |
    ⟨-, rfl⟩ <;> rfl

theorem csrStore_tvecInstalled {full : Bool} {r : Csr} {new : Word} {s t : State} (h : csrStore full r new s = .next t)
    (hon : s.tvecInstalled = true) : t.tvecInstalled = true := by
  rcases csrStore_next h with ⟨-, rfl⟩ | ⟨-, rfl⟩ | ⟨-, -, rfl⟩ | ⟨-, -, -, rfl⟩ | ⟨-, rfl⟩ | ⟨-, rfl⟩ | ⟨-, rfl⟩ |
    ⟨-, rfl⟩
  case inr.inr.inr.inl => rfl
  all_goals exact hon

theorem csrStore_mie_of_ne {full : Bool} {r : Csr} {new : Word} {s t : State} (h : csrStore full r new s = .next t)
    (hr : r ≠ .mie) : t.mie = s.mie := by
  rcases csrStore_next h with ⟨-, rfl⟩ | ⟨hmie, -⟩ | ⟨-, -, rfl⟩ | ⟨-, -, -, rfl⟩ | ⟨-, rfl⟩ | ⟨-, rfl⟩ | ⟨-, rfl⟩ |
    ⟨-, rfl⟩
  case inr.inl => exact absurd hmie hr
  all_goals rfl

theorem tmrStore_some {s t : State} {r : TimerReg} (h : tmrStore s r = some t) :
    t = { s with mtimecmp := t.mtimecmp, period := t.period, lastTime := t.lastTime } := by
  cases r with
  | time | timeLo | timeHi => cases h
  | timecmp | period | last | timecmpLo | timecmpHi => cases h; rfl

/-! ## Commands -/

/-- What a command that has a next state may do. -/
inductive CommandEffect (s : State) : Instr → State → Prop
  /-- The selector names no register. -/
  | illegal (i : Instr) : CommandEffect s i s.answerIllegal
  /-- A value is read or computed. -/
  | answer (i : Instr) (v : Word) : CommandEffect s i (s.answerOk v)
  /-- A value is answered, and another stored in the CSR the selector names. -/
  | store {r : Csr} {imm : Imm5} {i : Instr} {full : Bool} {new v : Word} {t : State}
      (hi : i ∈ csrCommands (r.selector s.config) imm) (hstore : csrStore full r new (s.answerOk v) = .next t) :
      CommandEffect s i t
  /-- The compare value, the period or the cached time is stored. -/
  | timers (i : Instr) (cmp period last v : Word) :
      CommandEffect s i ({ s with mtimecmp := cmp, period := period, lastTime := last }.answerOk v)
  /-- The trap is returned from. -/
  | ret : CommandEffect s .trapRet s.returnFromTrap
  /-- The saved return address is advanced or kept. -/
  | service (v : Word) : CommandEffect s .trapSvc ({ s with mepc := servicedEpc s }.answerOk v)
  /-- The block waits, or goes on. -/
  | wait (w : Bool) : CommandEffect s .wait ({ s with waiting := w }.answerOk 0)

theorem csrUpdate_effect {sel : Selector} {full : Bool} {newOf : Word → Word} {s t : State} {i : Instr} {imm : Imm5}
    (h : csrUpdate sel full newOf s = .next t) (hi : i ∈ csrCommands sel imm) : CommandEffect s i t := by
  rcases csrUpdate_next h with ⟨-, rfl⟩ | ⟨r, hr, hstore⟩
  · exact .illegal i
  · rw [Csr.ofSelector_eq_some hr] at hi
    exact .store hi hstore

theorem execCsrRead_effect {sel : Selector} {s t : State} (h : execCsrRead sel s = .next t) :
    CommandEffect s (.csrRead sel) t := by
  unfold execCsrRead at h
  split at h <;> cases h
  · exact .illegal _
  · exact .answer _ _

theorem execTmrRead_effect {sel : Selector} {s t : State} (h : execTmrRead sel s = .next t) :
    CommandEffect s (.tmrRead sel) t := by
  unfold execTmrRead at h
  split at h <;> cases h
  · exact .illegal _
  · exact .answer _ _

theorem execTmrWrite_effect {sel : Selector} {s t : State} (h : execTmrWrite sel s = .next t) :
    CommandEffect s (.tmrWrite sel) t := by
  unfold execTmrWrite at h
  split at h <;> cases h
  case h_1 => exact .illegal _
  case h_2 u hu =>
    obtain ⟨r, -, hstore⟩ := Option.bind_eq_some_iff.mp hu
    rw [tmrStore_some hstore]
    exact .timers ..

/-- Every next state of a command is one of the effects. -/
theorem exec_effect {i : Instr} {s t : State} (h : exec i s = .next t) : CommandEffect s i t := by
  cases i with
  | csrRead sel => exact execCsrRead_effect h
  | csrWrite sel => exact csrUpdate_effect (imm := 0) ((exec_csrWrite sel s).symm.trans h) (by simp [csrCommands])
  | csrSet sel => exact csrUpdate_effect (imm := 0) ((exec_csrSet sel s).symm.trans h) (by simp [csrCommands])
  | csrClear sel => exact csrUpdate_effect (imm := 0) ((exec_csrClear sel s).symm.trans h) (by simp [csrCommands])
  | csrWriteI sel imm =>
    exact csrUpdate_effect (imm := imm) ((exec_csrWriteI sel imm s).symm.trans h) (by simp [csrCommands])
  | csrSetI sel imm =>
    exact csrUpdate_effect (imm := imm) ((exec_csrSetI sel imm s).symm.trans h) (by simp [csrCommands])
  | csrClearI sel imm =>
    exact csrUpdate_effect (imm := imm) ((exec_csrClearI sel imm s).symm.trans h) (by simp [csrCommands])
  | tmrRead sel => exact execTmrRead_effect h
  | tmrWrite sel => exact execTmrWrite_effect h
  | tmrRearm => cases h; exact .timers ..
  | tmrConv => cases h; exact .answer ..
  | trapRet => cases h; exact .ret
  | trapSvc => cases h; exact .service _
  | wait => cases h; exact .wait _

/-- What every command leaves alone. -/
structure CommandFrame (s t : State) : Prop where
  config : t.config = s.config
  faultFlag : t.faultFlag = s.faultFlag
  inputs : t.inputs = s.inputs
  mtime : t.mtime = s.mtime
  msipIn : t.msipIn = s.msipIn
  meipIn : t.meipIn = s.meipIn
  draws : t.draws = s.draws
  wdata : t.wdata = s.wdata

namespace CommandEffect
variable {s t : State} {i : Instr}

theorem frame (h : CommandEffect s i t) : CommandFrame s t := by
  cases h with
  | store _ hstore =>
    rw [csrStore_frame hstore]
    exact ⟨rfl, rfl, rfl, rfl, rfl, rfl, rfl, rfl⟩
  | illegal | answer | timers | ret | service | wait => exact ⟨rfl, rfl, rfl, rfl, rfl, rfl, rfl, rfl⟩

theorem trapTaken (h : CommandEffect s i t) : t.outputs.trapTaken = none := by
  cases h with
  | store _ hstore => rw [csrStore_outputs hstore]; rfl
  | illegal | answer | timers | ret | service | wait => rfl

theorem tvecInstalled (h : CommandEffect s i t) (hon : s.tvecInstalled = true) : t.tvecInstalled = true := by
  cases h with
  | store _ hstore => exact csrStore_tvecInstalled hstore hon
  | illegal | answer | timers | ret | service | wait => exact hon

/-- Only a CSR command on the selector of mie changes the per-source enables. -/
theorem mie (h : CommandEffect s i t) :
    t.mie = s.mie ∨ ∃ imm, i ∈ csrCommands s.config.csrIe imm := by
  cases h with
  | @store r imm _ _ _ _ _ hi hstore =>
    by_cases hr : r = .mie
    · subst hr
      exact .inr ⟨imm, hi⟩
    · exact .inl ((csrStore_mie_of_ne hstore hr).trans (State.answerOk_mie ..))
  | illegal | answer | timers | ret | service | wait => exact .inl rfl

end CommandEffect

/-! ## Inputs (00_scope.md R12) -/

/-- What the step of an input that has a next state may do. -/
inductive InputEffect (s : State) : Input → State → Prop
  /-- The word is reserved. -/
  | reserved (w : CommandWord) (d : Word) : InputEffect s (.command w d) { s with wdata := d }.answerIllegal
  | command {w : CommandWord} {d : Word} {i : Instr} {t : State} (hdecode : decode w = .ok i)
      (heffect : CommandEffect { s with wdata := d } i t) : InputEffect s (.command w d) t
  | load {addr : Word} {width : AccessWidth} {sel : Selector} {t : State}
      (heffect : CommandEffect s (.tmrRead sel) t) : InputEffect s (.load addr width) t
  | store {addr v : Word} {width : AccessWidth} {sel : Selector} {t : State}
      (heffect : CommandEffect { s with wdata := v } (.tmrWrite sel) t) : InputEffect s (.store addr width v) t
  | exc {code pc tval target : Word} (haligned : pc.toNat % 4 = 0)
      (htarget : trapTarget false (portCode s code) s = .next target) :
      InputEffect s (.exc code pc tval)
        (s.enterTrap false (portCode s code) (portWord s pc) (portWord s tval) target)
  /-- The poll takes the interrupt of the source. -/
  | taken {pc target : Word} (k : IrqSource) (haligned : pc.toNat % 4 = 0)
      (htarget : trapTarget true (irqCode s.config k) s = .next target) :
      InputEffect s (.irqPoll pc) (s.enterTrap true (irqCode s.config k) (portWord s pc) 0 target)
  /-- The poll takes nothing. -/
  | notTaken {pc : Word} (haligned : pc.toNat % 4 = 0) :
      InputEffect s (.irqPoll pc) (s.pollNothing (portWord s pc))
  | tick : InputEffect s .tick s.tick
  | pin (msip meip : Bool) : InputEffect s (.pin msip meip) (s.drivePins msip meip)
  | reset : InputEffect s .reset s.resetEvent

theorem performCommand_effect {w : CommandWord} {d : Word} {s t : State} (h : performCommand w d s = .next t) :
    InputEffect s (.command w d) t := by
  unfold performCommand at h
  cases hdecode : decode w with
  | ok i =>
    rw [hdecode] at h
    exact .command hdecode (exec_effect h)
  | error e =>
    rw [hdecode] at h
    cases h
    exact .reserved w d

theorem performLoad_effect {addr : Word} {width : AccessWidth} {s t : State} (h : performLoad addr width s = .next t) :
    InputEffect s (.load addr width) t := by
  unfold performLoad at h
  split at h
  · exact .load (exec_effect h)
  · cases h

theorem performStore_effect {addr v : Word} {width : AccessWidth} {s t : State}
    (h : performStore addr width v s = .next t) : InputEffect s (.store addr width v) t := by
  unfold performStore at h
  split at h
  · exact .store (exec_effect h)
  · cases h

theorem excEvent_effect {code pc tval : Word} {s t : State} (h : excEvent code pc tval s = .next t) :
    InputEffect s (.exc code pc tval) t := by
  unfold excEvent at h
  split at h
  case isTrue haligned =>
    obtain ⟨target, htarget, rfl⟩ := takeTrap_next h
    exact .exc ((pcAligned_iff pc).mp haligned) htarget
  case isFalse => cases h

theorem irqPollEvent_effect {pc : Word} {s t : State} (h : irqPollEvent pc s = .next t) :
    InputEffect s (.irqPoll pc) t := by
  unfold irqPollEvent at h
  split at h
  case isFalse => cases h
  case isTrue haligned =>
    have haligned := (pcAligned_iff pc).mp haligned
    split at h
    case isFalse => cases h; exact .notTaken haligned
    case isTrue =>
      split at h
      · obtain ⟨target, htarget, rfl⟩ := takeTrap_next h
        exact .taken _ haligned htarget
      · cases h
        exact .notTaken haligned

/-- Every next state of an input is one of the effects. -/
theorem perform_effect {i : Input} {s t : State} (h : perform i s = .next t) : InputEffect s i t := by
  cases i with
  | command w d => exact performCommand_effect h
  | load addr width => exact performLoad_effect h
  | store addr width v => exact performStore_effect h
  | exc code pc tval => exact excEvent_effect h
  | irqPoll pc => exact irqPollEvent_effect h
  | tick => cases h; exact .tick
  | pin msip meip => cases h; exact .pin msip meip
  | reset => cases h; exact .reset

/-- A step does nothing, or is the effect of the input that moves next. -/
theorem step_effect {s t : State} (h : step s = .next t) :
    t = s ∨ ∃ i rest, nextInput s.waiting s.inputs = some (i, rest) ∧ InputEffect { s with inputs := rest } i t := by
  obtain ⟨-, ⟨-, hidle⟩ | ⟨i, rest, hnext, hperform⟩⟩ := step_next h
  · exact .inl hidle
  · exact .inr ⟨i, rest, hnext, perform_effect hperform⟩

/-! ## What each agent leaves alone (10_state.md R44, R45) -/

/-- Settles O56: each clause is the frame of the input's effect. -/
theorem eachAgentWritesOnlyItsOwnState : Obligations.EachAgentWritesOnlyItsOwnState := by
  intro i s t h
  cases perform_effect h with
  | reserved w d => exact ⟨rfl, rfl, rfl, rfl, rfl, rfl, rfl⟩
  | command _ heffect | load heffect | store heffect =>
    have hframe := heffect.frame
    exact ⟨hframe.config, hframe.faultFlag, hframe.inputs, hframe.mtime, hframe.msipIn, hframe.meipIn, hframe.draws⟩
  | exc | taken | notTaken | tick | pin => exact ⟨rfl, rfl, rfl, rfl⟩
  | reset => exact ⟨rfl, rfl, rfl, rfl, rfl, rfl⟩

/-- Settles O41: a command drives nothing on the trap port, and TICK, PIN and RESET drive nothing on it either. -/
theorem trapsOnlyFromExceptionAndPoll : Obligations.TrapsOnlyFromExceptionAndPoll := by
  intro i s t h htaken
  cases perform_effect h with
  | exc => exact .inl ⟨_, _, _, rfl⟩
  | taken | notTaken => exact .inr ⟨_, rfl⟩
  | command _ heffect | load heffect | store heffect =>
    rw [heffect.trapTaken] at htaken
    cases htaken
  | reserved | tick | pin | reset => cases htaken

/-- Settles O53: no effect but RESET's uninstalls. -/
theorem installedUntilReset : Obligations.InstalledUntilReset := by
  intro s t h hon hoff
  rcases step_effect h with rfl | ⟨i, rest, hnext, heffect⟩
  · rw [hon] at hoff
    cases hoff
  cases heffect with
  | reset => exact ⟨rest, hnext⟩
  | command _ heffect | load heffect | store heffect =>
    rw [heffect.tvecInstalled hon] at hoff
    cases hoff
  | reserved | exc | taken | notTaken | tick | pin => exact absurd (hon.symm.trans hoff) (by decide)

/-- Settles O54: no effect but those of TICK and RESET writes the counter. -/
theorem counterChangesOnlyByTickAndReset : Obligations.CounterChangesOnlyByTickAndReset := by
  intro s t h hne
  rcases step_effect h with rfl | ⟨i, rest, hnext, heffect⟩
  · exact absurd rfl hne
  cases heffect with
  | tick => exact .inl ⟨rest, hnext, rfl⟩
  | reset => exact .inr ⟨rest, hnext⟩
  | command _ heffect | load heffect | store heffect => exact absurd heffect.frame.mtime hne
  | reserved | exc | taken | notTaken | pin => exact absurd rfl hne

/-- Settles O55: of the commands only those on the selector of mie write it, and of the events only RESET. A load or
store is a timer command, which is none of them. -/
theorem enablesChangeOnlyByCommand : Obligations.EnablesChangeOnlyByCommand := by
  intro s t h hne
  rcases step_effect h with rfl | ⟨i, rest, hnext, heffect⟩
  · exact absurd rfl hne
  cases heffect with
  | reset => exact .inl ⟨rest, hnext⟩
  | command hdecode heffect =>
    obtain ⟨imm, hmem⟩ := heffect.mie.resolve_left hne
    exact .inr ⟨_, _, rest, _, imm, hnext, hdecode, hmem⟩
  | load heffect | store heffect =>
    obtain ⟨imm, hmem⟩ := heffect.mie.resolve_left hne
    simp [csrCommands] at hmem
  | reserved | exc | taken | notTaken | tick | pin => exact absurd rfl hne

/-! ## Faults (60_exceptions.md R169) -/

theorem csrUpdate_ne_fault (sel : Selector) (full : Bool) (newOf : Word → Word) (s : State) (f : Fault) :
    csrUpdate sel full newOf s ≠ .fault f := by
  unfold csrUpdate
  split
  · exact nofun
  · exact csrStore_ne_fault _ _ _ _ f

/-- No command faults. -/
theorem exec_ne_fault (i : Instr) (s : State) (f : Fault) : exec i s ≠ .fault f := by
  cases i with
  | csrWrite sel => exact (exec_csrWrite sel s).trans_ne (csrUpdate_ne_fault _ _ _ s f)
  | csrSet sel => exact (exec_csrSet sel s).trans_ne (csrUpdate_ne_fault _ _ _ s f)
  | csrClear sel => exact (exec_csrClear sel s).trans_ne (csrUpdate_ne_fault _ _ _ s f)
  | csrWriteI sel imm => exact (exec_csrWriteI sel imm s).trans_ne (csrUpdate_ne_fault _ _ _ s f)
  | csrSetI sel imm => exact (exec_csrSetI sel imm s).trans_ne (csrUpdate_ne_fault _ _ _ s f)
  | csrClearI sel imm => exact (exec_csrClearI sel imm s).trans_ne (csrUpdate_ne_fault _ _ _ s f)
  | csrRead sel =>
    show execCsrRead sel s ≠ _
    unfold execCsrRead
    split <;> exact nofun
  | tmrRead sel =>
    show execTmrRead sel s ≠ _
    unfold execTmrRead
    split <;> exact nofun
  | tmrWrite sel =>
    show execTmrWrite sel s ≠ _
    unfold execTmrWrite
    split <;> exact nofun
  | tmrRearm | tmrConv | trapRet | trapSvc | wait => exact nofun

/-- Where a trap entry faults: the dispatcher is uninstalled, or vectored with a misaligned table. -/
def EntryFault (s : State) (f : Fault) : Prop :=
  (f = .trapWhileUninstalled ∧ s.tvecInstalled = false) ∨
  (f = .misalignedVectorBase ∧ s.tvecInstalled = true ∧ vectored s ∧ base s % s.config.vecAlign ≠ 0)

/-- An enterable dispatcher has a target or refuses the slot. -/
theorem trapTarget_ne_fault {s : State} (h : Enterable s) (i : Bool) (code : Word) (f : Fault) :
    trapTarget i code s ≠ .fault f := by
  by_cases hv : vectored s
  case neg => rw [trapTarget_direct h hv]; exact nofun
  cases i with
  | false => rw [trapTarget_exception h]; exact nofun
  | true =>
    rcases lt_or_ge code.toNat s.config.vecSlots with hslot | hslot
    · rw [trapTarget_slot h hv hslot]; exact nofun
    · rw [trapTarget_without_slot h hv hslot]; exact nofun

theorem trapTarget_fault {s : State} {i : Bool} {code : Word} {f : Fault} (h : trapTarget i code s = .fault f) :
    EntryFault s f := by
  by_cases hoff : s.tvecInstalled = false
  · rw [trapTarget_of_uninstalled hoff] at h
    cases h
    exact .inl ⟨rfl, hoff⟩
  have hon : s.tvecInstalled = true := Bool.eq_true_of_not_eq_false hoff
  by_cases henter : Enterable s
  · exact absurd h (trapTarget_ne_fault henter i code f)
  · obtain ⟨hv, hbase⟩ : vectored s ∧ base s % s.config.vecAlign ≠ 0 := by
      by_contra hno
      exact henter ⟨hon, fun hv => not_not.mp fun hne => hno ⟨hv, hne⟩⟩
    rw [Exceptions.trapTarget_of_misaligned hon hv hbase] at h
    cases h
    exact .inr ⟨rfl, hon, hv, hbase⟩

theorem takeTrap_fault {s : State} {i : Bool} {code pc tval : Word} {f : Fault}
    (h : Machine.takeTrap i code pc tval s = .fault f) : EntryFault s f := by
  unfold Machine.takeTrap at h
  split at h
  case h_1 => cases h
  case h_2 f' hf => cases h; exact trapTarget_fault hf
  case h_3 => cases h

theorem irqPollEvent_fault {s : State} {pc : Word} {f : Fault} (h : irqPollEvent pc s = .fault f) : EntryFault s f := by
  unfold irqPollEvent at h
  repeat' split at h
  case h_1 => exact takeTrap_fault h
  all_goals cases h

/-- An input that faults is EXC or IRQ_POLL. -/
theorem perform_fault {i : Input} {s : State} {f : Fault} (h : perform i s = .fault f) :
    ((∃ code pc tval, i = .exc code pc tval) ∨ ∃ pc, i = .irqPoll pc) ∧ EntryFault s f := by
  cases i with
  | exc code pc tval =>
    change excEvent code pc tval s = _ at h
    unfold excEvent at h
    split at h
    · exact ⟨.inl ⟨_, _, _, rfl⟩, takeTrap_fault h⟩
    · cases h
  | irqPoll pc => exact ⟨.inr ⟨_, rfl⟩, irqPollEvent_fault h⟩
  | command w d =>
    change performCommand w d s = _ at h
    unfold performCommand at h
    split at h
    · exact absurd h (exec_ne_fault _ _ f)
    · cases h
  | load addr width =>
    change performLoad addr width s = _ at h
    unfold performLoad at h
    split at h
    · exact absurd h (exec_ne_fault _ _ f)
    · cases h
  | store addr width v =>
    change performStore addr width v s = _ at h
    unfold performStore at h
    split at h
    · exact absurd h (exec_ne_fault _ _ f)
    · cases h
  | tick | pin | reset => cases h

/-- Settles O42: a step without a flag that faults performed an input that faults. -/
theorem faultsOnlyAtTrapEntry : Obligations.FaultsOnlyAtTrapEntry := by
  intro s f hflag h
  cases hnext : nextInput s.waiting s.inputs with
  | none => simp [step, performNext, hflag, hnext] at h
  | some p =>
    obtain ⟨i, rest⟩ := p
    rw [step_perform hflag hnext] at h
    obtain ⟨hkind, hfault⟩ := perform_fault h
    exact ⟨⟨i, rest, rfl, hkind⟩, hfault⟩

/-- Settles O57: the flag is looked at before any input, and `recordStep` writes it through `raiseFlag`. -/
theorem faultFlagIsSticky : Obligations.FaultFlagIsSticky := by
  have hrecord : ∀ (s : State) (f : Fault), step s = .fault f → s.recordStep.faultFlag = some f := fun s f h => by
    rw [State.recordStep, h, State.raiseFlag_faultFlag]
  have hstuck : ∀ (s : State) (f : Fault), s.faultFlag = some f → step s = .fault f := fun s f h => by
    rw [step, performNext, h]
  refine ⟨fun s f h => ⟨hstuck s f h, hrecord s f (hstuck s f h)⟩, hrecord, fun s t h => ?_⟩
  obtain ⟨-, hkept, -⟩ := eachAgentWritesOnlyItsOwnState .reset s t h
  exact hkept

/-- Settles O6: the head of the inputs of a ready block is performed. -/
theorem stepRunsTheDecodedCommand : Obligations.StepRunsTheDecodedCommand :=
  fun _ _ _ _ _ hready hinputs hdecode => step_command hready hinputs hdecode

end Sys2Proof.Proofs.StepEffects
end

section
/-! PROOFS. What every step keeps: the legal state (10_state.md R22, R24, R28, R30), the halt (42_trap_dispatch.md R147)
and the state without preemption (60_exceptions.md R172). -/

open Sys2Proof Sys2Proof.Machine Sys2Proof.Spec Sys2Proof.Proofs.Encoding Sys2Proof.Proofs.CsrOps
  Sys2Proof.Proofs.TimerOps Sys2Proof.Proofs.TrapDispatch Sys2Proof.Proofs.StepEffects

namespace Sys2Proof.Proofs.Invariants

/-! ## Words that fit, and pcs (10_state.md R22, R24) -/

/-- A pc of the block: XLEN bits, and a multiple of 4. -/
def IsPc (x : XLen) (v : Word) : Prop := fitsXlen x v ∧ v.toNat % 4 = 0

theorem fitsXlen_truncXlen (x : XLen) (v : Word) : fitsXlen x (truncXlen x v) := by
  rw [fitsXlen, truncXlen_toNat]
  exact Nat.mod_lt _ (Nat.two_pow_pos _)

theorem isPc_truncXlen (x : XLen) {v : Word} (h : v.toNat % 4 = 0) : IsPc x (truncXlen x v) := by
  have hdvd : 4 ∣ 2 ^ xlenBits x := by cases x <;> decide
  refine ⟨fitsXlen_truncXlen x v, ?_⟩
  rw [truncXlen_toNat, Nat.mod_mod_of_dvd _ hdvd, h]

theorem isPc_alignPc {x : XLen} {v : Word} (h : fitsXlen x v) : IsPc x (alignPc v) := by
  rw [IsPc, fitsXlen, alignPc_toNat]
  exact ⟨(Nat.div_mul_le_self _ _).trans_lt h, Nat.mul_mod_left _ _⟩

theorem isPc_csrRead_mepc (s : State) : IsPc s.config.xlen (csrRead s .mepc) := isPc_alignPc (fitsXlen_truncXlen _ _)

theorem isPc_resetVector (c : Config) : IsPc c.xlen (resetVector c) := ⟨resetVector_fits c, resetVector_aligned c⟩

/-! ## The target and the cause of a trap (42_trap_dispatch.md R143, R141) -/

/-- The base is below the value of mtvec, and a multiple of the granule. -/
theorem isPc_base {s : State} (h : LegalConfig s.config) : IsPc s.config.xlen s.base := by
  have hmod : s.mtvec.toNat % 2 ^ xlenBits s.config.xlen < 2 ^ xlenBits s.config.xlen :=
    Nat.mod_lt _ (Nat.two_pow_pos _)
  rw [IsPc, fitsXlen, base_toNat]
  exact ⟨(Nat.div_mul_le_self _ _).trans_lt hmod,
    Nat.mod_eq_zero_of_dvd ((Nat.dvd_of_mod_eq_zero h.granule.2).mul_left _)⟩

theorem isPc_slot {s : State} (h : LegalConfig s.config) (n : Nat) :
    IsPc s.config.xlen (truncXlen s.config.xlen (s.base + BitVec.ofNat 64 (s.config.vecStride * n))) := by
  have hbase : s.base.toNat % 4 = 0 := (isPc_base h).2
  have hoffset : s.config.vecStride * n % 4 = 0 :=
    Nat.mod_eq_zero_of_dvd ((Nat.dvd_of_mod_eq_zero h.stride).mul_right _)
  refine isPc_truncXlen _ ?_
  rw [BitVec.toNat_add, BitVec.toNat_ofNat]
  omega

theorem isPc_trapTarget {s : State} (h : LegalConfig s.config) {i : Bool} {code target : Word}
    (htarget : trapTarget i code s = .next target) : IsPc s.config.xlen target := by
  obtain ⟨-, ⟨-, rfl⟩ | ⟨-, -, -, rfl⟩ | ⟨-, -, -, -, rfl⟩⟩ := trapTarget_next htarget
  · exact isPc_base h
  · exact isPc_base h
  · exact isPc_slot h _

theorem portCode_lt_top (s : State) (code : Word) : (portCode s code).toNat < top s := by
  rw [portCode, causeCode_toNat, top_eq]
  exact Nat.mod_lt _ (Nat.two_pow_pos _)

theorem irqCode_lt_top_of_legal {s : State} (h : LegalConfig s.config) (k : IrqSource) :
    (irqCode s.config k).toNat < top s := by
  have hbits : xlenBits s.config.xlen < 2 ^ (xlenBits s.config.xlen - 1) := by cases s.config.xlen <;> decide
  rw [irqCode, BitVec.toNat_ofNat, top_eq]
  exact (Nat.mod_le _ _).trans_lt ((h.sourceBit k).trans hbits)

theorem fitsXlen_causeWord {s : State} {code : Word} (h : code.toNat < top s) (i : Bool) :
    fitsXlen s.config.xlen (bitAt i (xlenBits s.config.xlen - 1) ||| code) := by
  have hi : top s * i.toNat ≤ top s := mul_le_of_le_one_right (Nat.zero_le _) (Bool.toNat_le i)
  have hwidth : wordSize s = top s + top s := by
    rw [top_eq, wordSize]
    cases s.config.xlen <;> rfl
  have hlt : top s * i.toNat + code.toNat < wordSize s := by omega
  rw [causeWord_eq h, fitsXlen, word_toNat_of_lt hlt]
  exact hlt

/-! ## The legal state -/

section
variable {s : State}

theorem legal_of_outputs (h : State.Legal s) (o : Outputs) (ho : ∀ p, o.nextPc = some p → IsPc s.config.xlen p) :
    State.Legal { s with outputs := o } :=
  { h with nextPcFits := fun p hp => (ho p hp).1, nextPcAligned := fun p hp => (ho p hp).2 }

theorem legal_answerOk (h : State.Legal s) (v : Word) : State.Legal (s.answerOk v) := legal_of_outputs h _ nofun

theorem legal_answerIllegal (h : State.Legal s) : State.Legal s.answerIllegal := legal_of_outputs h _ nofun

theorem legal_wdata (h : State.Legal s) (d : Word) : State.Legal { s with wdata := d } := { h with }

theorem legal_inputs (h : State.Legal s) (l : List Input) : State.Legal { s with inputs := l } := { h with }

theorem legal_mepc (h : State.Legal s) {v : Word} (hv : IsPc s.config.xlen v) : State.Legal { s with mepc := v } :=
  { h with mepcFits := hv.1, mepcAligned := hv.2 }

/-- A store keeps XLEN bits of the new value, and refuses the reserved bit of mtvec. -/
theorem csrStore_legal {t : State} {full : Bool} {r : Csr} {new : Word} (h : State.Legal s)
    (hstore : csrStore full r new s = .next t) : State.Legal t := by
  have hfits : fitsXlen s.config.xlen (truncXlen s.config.xlen new) := fitsXlen_truncXlen _ _
  rcases csrStore_next hstore with ⟨-, rfl⟩ | ⟨-, rfl⟩ | ⟨-, -, rfl⟩ | ⟨-, -, hbit, rfl⟩ | ⟨-, rfl⟩ | ⟨-, rfl⟩ |
    ⟨-, rfl⟩ | ⟨-, rfl⟩
  · exact { h with }
  · exact { h with }
  · exact h
  · have hreserved : (truncXlen s.config.xlen new).getLsbD 1 = false := by rw [getLsbD_truncXlen, hbit, Bool.and_false]
    exact { h with mtvecFits := hfits, tvecReserved := fun _ => hreserved }
  · exact legal_mepc h (isPc_alignPc hfits)
  · exact { h with mcauseFits := hfits }
  · exact { h with mtvalFits := hfits }
  · exact h

/-- The pc increment keeps the saved return address a pc. -/
theorem isPc_servicedEpc (h : State.Legal s) : IsPc s.config.xlen (servicedEpc s) := by
  unfold servicedEpc
  split
  case isFalse => exact ⟨h.mepcFits, h.mepcAligned⟩
  case isTrue =>
    have hmepc : (csrRead s .mepc).toNat % 4 = 0 := (isPc_csrRead_mepc s).2
    have hilen := h.config.ilen
    refine isPc_truncXlen _ ?_
    rw [BitVec.toNat_add, BitVec.toNat_ofNat]
    omega

theorem commandEffect_legal {t : State} {i : Instr} (h : State.Legal s) (heffect : CommandEffect s i t) :
    State.Legal t := by
  cases heffect with
  | illegal => exact legal_answerIllegal h
  | answer => exact legal_answerOk h _
  | store _ hstore => exact csrStore_legal (legal_answerOk h _) hstore
  | timers => exact { h with nextPcFits := nofun, nextPcAligned := nofun }
  | ret =>
    have hpc := isPc_csrRead_mepc s
    exact { h with nextPcFits := fun p hp => by cases hp; exact hpc.1
                   nextPcAligned := fun p hp => by cases hp; exact hpc.2 }
  | service => exact legal_answerOk (legal_mepc h (isPc_servicedEpc h)) _
  | wait => exact { h with nextPcFits := nofun, nextPcAligned := nofun }

/-- What a trap entry saves and drives is of the form the ports and the target have. -/
theorem enterTrap_legal (h : State.Legal s) {i : Bool} {code tval target : Word} (pc : Word)
    (hcode : code.toNat < top s) (htval : fitsXlen s.config.xlen tval) (htarget : trapTarget i code s = .next target) :
    State.Legal (s.enterTrap i code (portWord s pc) tval target) := by
  have hmepc : IsPc s.config.xlen (alignPc (portWord s pc)) := isPc_alignPc (fitsXlen_truncXlen _ _)
  have hnext := isPc_trapTarget h.config htarget
  exact { h with
    mepcFits := hmepc.1, mepcAligned := hmepc.2, mcauseFits := fitsXlen_causeWord hcode i, mtvalFits := htval
    nextPcFits := fun p hp => by cases hp; exact hnext.1
    nextPcAligned := fun p hp => by cases hp; exact hnext.2 }

/-- Every value the event RESET draws is cut to the width of its register, and it uninstalls mtvec. -/
theorem resetEvent_legal (h : State.Legal s) : State.Legal s.resetEvent where
  config := h.config
  mtvecFits := fitsXlen_truncXlen _ _
  mepcFits := (isPc_alignPc (fitsXlen_truncXlen _ _)).1
  mcauseFits := fitsXlen_truncXlen _ _
  mtvalFits := fitsXlen_truncXlen _ _
  mepcAligned := (isPc_alignPc (fitsXlen_truncXlen _ _)).2
  tvecReserved := nofun
  nextPcFits := fun p hp => by cases hp; exact (isPc_resetVector _).1
  nextPcAligned := fun p hp => by cases hp; exact (isPc_resetVector _).2

theorem inputEffect_legal {t : State} {i : Input} (h : State.Legal s) (heffect : InputEffect s i t) :
    State.Legal t := by
  cases heffect with
  | reserved w d => exact legal_answerIllegal (legal_wdata h d)
  | command _ heffect => exact commandEffect_legal (legal_wdata h _) heffect
  | load heffect => exact commandEffect_legal h heffect
  | store heffect => exact commandEffect_legal (legal_wdata h _) heffect
  | exc _ htarget => exact enterTrap_legal h _ (portCode_lt_top s _) (fitsXlen_truncXlen _ _) htarget
  | taken k _ htarget =>
    exact enterTrap_legal h _ (irqCode_lt_top_of_legal h.config k) (Nat.two_pow_pos _) htarget
  | notTaken haligned =>
    refine legal_of_outputs h _ fun p hp => ?_
    cases hp
    exact isPc_truncXlen _ haligned
  | tick => exact { h with nextPcFits := nofun, nextPcAligned := nofun }
  | pin => exact { h with nextPcFits := nofun, nextPcAligned := nofun }
  | reset => exact resetEvent_legal h

end

/-- Settles O52: the idle step changes nothing, and every effect of an input keeps the state legal. -/
theorem everyStepKeepsTheStateLegal : Obligations.EveryStepKeepsTheStateLegal := by
  intro s t h hstep
  rcases step_effect hstep with rfl | ⟨i, rest, -, heffect⟩
  · exact h
  · exact inputEffect_legal (legal_inputs h rest) heffect

/-! ## The state right after reset (10_state.md R43) -/

theorem legalConfig_platform : LegalConfig Config.platform where
  selectors := Decided.selectors rfl
  sources := by intro k j; cases k <;> cases j <;> decide
  sourceBit := by
    intro k
    show irqNumber Config.platform k < xlenBits Config.openXlen
    cases Config.openXlen <;> cases k <;> decide
  statusBits := by decide
  statusBit := by
    show ∀ n ∈ [3, 7, 12], n < xlenBits Config.openXlen
    cases Config.openXlen <;> decide
  prio := by intro k; cases k <;> decide
  slots := by intro k; cases k <;> decide
  granule := by decide
  ilen := rfl
  stride := rfl
  hz := Nat.succ_ne_zero _
  unit := by decide

/-- Settles O51: the registers hold 0, and RESET_VECTOR is a pc. -/
theorem resetStateIsLegal : Obligations.ResetStateIsLegal where
  config := legalConfig_platform
  mtvecFits := Nat.two_pow_pos _
  mepcFits := Nat.two_pow_pos _
  mcauseFits := Nat.two_pow_pos _
  mtvalFits := Nat.two_pow_pos _
  mepcAligned := rfl
  tvecReserved := nofun
  nextPcFits := fun p hp => by cases hp; exact (isPc_resetVector _).1
  nextPcAligned := fun p hp => by cases hp; exact (isPc_resetVector _).2

/-- Settles O50: the fields of the reset state. -/
theorem resetStateIsMaskedAndUninstalled : Obligations.ResetStateIsMaskedAndUninstalled :=
  ⟨rfl, rfl, rfl, rfl, rfl, rfl, rfl⟩

/-- The bits of a number with one bit for each source. -/
theorem testBit_threeBits (e t m : Bool) (k : Nat) :
    (2 ^ 11 * e.toNat + 2 ^ 7 * t.toNat + 2 ^ 3 * m.toNat).testBit k =
      (decide (k = 11) && e || decide (k = 7) && t || decide (k = 3) && m) := by
  rcases Nat.lt_or_ge k 12 with hk | hk
  · revert e t m k
    decide
  · have hlt : 2 ^ 11 * e.toNat + 2 ^ 7 * t.toNat + 2 ^ 3 * m.toNat < 2 ^ k :=
      lt_of_lt_of_le (by revert e t m; decide) (Nat.pow_le_pow_right (by decide) hk)
    rw [Nat.testBit_lt_two_pow hlt, decide_eq_false (by omega), decide_eq_false (by omega), decide_eq_false (by omega)]
    rfl

/-- The enables a word holds are its bits at the decided numbers of the sources. -/
theorem csrValue_mie_of_enableOfWord {s : State} {c : Config} {v : Word} (h : Decided c)
    (hmie : s.mie = enableOfWord c v) : csrValue s .mie = v.toNat &&& 0x888 := by
  have hmask : (0x888 : Nat) = 2 ^ 11 * true.toNat + 2 ^ 7 * true.toNat + 2 ^ 3 * true.toNat := rfl
  rw [csrValue, hmie, enableOfWord, h.irqMsi, h.irqMti, h.irqMei, hmask]
  refine Nat.eq_of_testBit_eq fun k => ?_
  rw [Nat.testBit_and, testBit_threeBits, testBit_threeBits]
  by_cases hmei : k = 11
  · subst hmei; simp [BitVec.getLsbD]
  by_cases hmti : k = 7
  · subst hmti; simp [BitVec.getLsbD]
  by_cases hmsi : k = 3
  · subst hmsi; simp [BitVec.getLsbD]
  · simp [hmei, hmti, hmsi]

/-- Settles O49: the fields the event writes, and those it does not. -/
theorem resetEventClearsEnablesAndUninstalls : Obligations.ResetEventClearsEnablesAndUninstalls := by
  intro s rest hflag hinputs
  have hnext : nextInput s.waiting s.inputs = some (.reset, rest) := by rw [hinputs, nextInput_other _ _ rfl]
  refine ⟨_, step_perform hflag hnext, rfl, fun hdec => ?_, rfl, rfl, rfl, rfl, rfl, rfl, rfl, rfl⟩
  exact csrValue_mie_of_enableOfWord hdec rfl

/-! ## Runs that keep an invariant -/

/-- An invariant that every step keeps, in a state related to the one before, is kept by every run, in a state related
to the first. -/
theorem runSteps_of_step {P : State → Prop} {R : State → State → Prop} (hrefl : ∀ s, R s s)
    (htrans : ∀ s t u, R s t → R t u → R s u) (hstep : ∀ s, P s → ∃ t, step s = .next t ∧ P t ∧ R s t) (n : Nat) :
    ∀ s, P s → ∃ t, runSteps n s = .next t ∧ P t ∧ R s t := by
  induction n with
  | zero => exact fun s h => ⟨s, rfl, h, hrefl s⟩
  | succ n ih =>
    intro s h
    obtain ⟨t, hfirst, ht, hst⟩ := hstep s h
    obtain ⟨u, hrest, hu, htu⟩ := ih t ht
    exact ⟨u, (runSteps_succ n hfirst).trans hrest, hu, htrans s t u hst htu⟩

/-! ## The halt (42_trap_dispatch.md R147) -/

/-- While the block waits the hart does not move. -/
theorem nextInput_waiting_fromHart {l : List Input} {i : Input} {rest : List Input}
    (h : nextInput true l = some (i, rest)) : i.fromHart = false := by
  induction l generalizing i rest with
  | nil => cases h
  | cons a l ih =>
    unfold nextInput at h
    split at h
    case isTrue =>
      obtain ⟨⟨j, r⟩, hj, heq⟩ := Option.map_eq_some_iff.mp h
      cases heq
      exact ih hj
    case isFalse hfree =>
      cases h
      simpa using hfree

/-- Without an enable nothing wakes the block. -/
theorem wake_eq_false_of_mie {s : State} (h : csrValue s .mie = 0) : s.wake = false := by
  have hnone : s.anyPendEn = false := by
    rw [← Bool.not_eq_true, ← pendEn_ne_zero_iff, not_not, pendEn, h, Nat.and_zero]
  rw [State.wake, State.deliverable, hnone, Bool.and_false, ite_self]

/-- What the steps of the halt may change. -/
def HaltFrame (s t : State) : Prop := t = { s with
    mtime := t.mtime, msipIn := t.msipIn, meipIn := t.meipIn, inputs := t.inputs, outputs := t.outputs }

theorem haltFrame_trans (s t u : State) (hst : HaltFrame s t) (htu : HaltFrame t u) : HaltFrame s u :=
  htu.trans (congrArg (fun v : State => { v with
    mtime := u.mtime, msipIn := u.msipIn, meipIn := u.meipIn, inputs := u.inputs, outputs := u.outputs }) hst)

/-- Without an enable a wait goes on. -/
theorem wakeIfReady_eq_self {s : State} (hwait : s.waiting = true) (hmie : csrValue s .mie = 0) :
    s.wakeIfReady = s := by
  have hgoes : (s.waiting && !s.wake) = s.waiting := by rw [wake_eq_false_of_mie hmie, hwait]; rfl
  rw [State.wakeIfReady, hgoes]

/-- The inputs that move in the halt only count and drive the levels. -/
theorem perform_of_halt {s : State} {i : Input} (hwait : s.waiting = true) (hmie : csrValue s .mie = 0)
    (hother : i.fromHart = false) (hreset : i ≠ .reset) :
    ∃ mtime msip meip, perform i s = .next { s with
      mtime := mtime, msipIn := msip, meipIn := meip, outputs := doneOutputs } := by
  cases i with
  | tick =>
    have htick : s.tick = { s with mtime := s.mtime + 1, outputs := doneOutputs } := wakeIfReady_eq_self hwait hmie
    exact ⟨_, _, _, congrArg _ htick⟩
  | pin msip meip =>
    have hpin : s.drivePins msip meip = { s with msipIn := msip, meipIn := meip, outputs := doneOutputs } :=
      wakeIfReady_eq_self hwait hmie
    exact ⟨_, _, _, congrArg _ hpin⟩
  | reset => exact absurd rfl hreset
  | command | load | store | exc | irqPoll => cases hother

theorem step_of_no_input {s : State} (hflag : s.faultFlag = none) (hnext : nextInput s.waiting s.inputs = none) :
    step s = .next s := by
  rw [step, performNext, hflag, hnext]

theorem step_of_halted (s : State) (h : Halted s) : ∃ t, step s = .next t ∧ Halted t ∧ HaltFrame s t := by
  obtain ⟨hflag, hwait, hmie, hreset⟩ := h
  cases hnext : nextInput s.waiting s.inputs with
  | none => exact ⟨s, step_of_no_input hflag hnext, ⟨hflag, hwait, hmie, hreset⟩, rfl⟩
  | some p =>
    obtain ⟨i, rest⟩ := p
    obtain ⟨hi, hrest⟩ := nextInput_mem hnext
    have hother : i.fromHart = false := nextInput_waiting_fromHart (hwait ▸ hnext)
    obtain ⟨mtime, msip, meip, hperform⟩ := perform_of_halt (s := { s with inputs := rest }) hwait hmie hother
      fun heq => hreset (heq ▸ hi)
    exact ⟨_, (step_perform hflag hnext).trans hperform, ⟨hflag, hwait, hmie, fun hmem => hreset (hrest _ hmem)⟩, rfl⟩

/-- Settles O35: the step of every halted state, and with it every run. -/
theorem haltWithoutEnablesIsForever : Obligations.HaltWithoutEnablesIsForever :=
  ⟨step_of_halted, runSteps_of_step (fun _ => rfl) haltFrame_trans step_of_halted⟩

/-! ## No preemption (60_exceptions.md R172) -/

/-- What the steps without preemption may change. -/
def UnpreemptedFrame (s t : State) : Prop := t = { s with
    mtime := t.mtime, msipIn := t.msipIn, meipIn := t.meipIn, waiting := t.waiting, inputs := t.inputs,
    outputs := t.outputs }

theorem unpreemptedFrame_trans (s t u : State) (hst : UnpreemptedFrame s t) (htu : UnpreemptedFrame t u) :
    UnpreemptedFrame s u :=
  htu.trans (congrArg (fun v : State => { v with
    mtime := u.mtime, msipIn := u.msipIn, meipIn := u.meipIn, waiting := u.waiting, inputs := u.inputs,
    outputs := u.outputs }) hst)

/-- With the global enable 0 a tick, a level change and an aligned poll have a next state, which takes no trap. -/
theorem perform_of_disabled {s : State} {i : Input} (hmie : s.mstatus.mie = false)
    (hi : i = .tick ∨ (∃ a b, i = .pin a b) ∨ ∃ pc : Word, i = .irqPoll pc ∧ pc.toNat % 4 = 0) :
    ∃ mtime msip meip waiting outputs, outputs.trapTaken ≠ some true ∧ perform i s = .next { s with
      mtime := mtime, msipIn := msip, meipIn := meip, waiting := waiting, outputs := outputs } := by
  rcases hi with rfl | ⟨msip, meip, rfl⟩ | ⟨pc, rfl, haligned⟩
  · exact ⟨_, _, _, _, doneOutputs, nofun, rfl⟩
  · exact ⟨_, _, _, _, doneOutputs, nofun, rfl⟩
  · exact ⟨_, _, _, _, (s.pollNothing (portWord s pc)).outputs, nofun, irqPollEvent_disabled haligned hmie⟩

theorem step_of_unpreempted (s : State) (h : Unpreempted s) :
    ∃ t, step s = .next t ∧ Unpreempted t ∧ UnpreemptedFrame s t := by
  obtain ⟨hflag, hmie, htaken, hinputs⟩ := h
  cases hnext : nextInput s.waiting s.inputs with
  | none => exact ⟨s, step_of_no_input hflag hnext, ⟨hflag, hmie, htaken, hinputs⟩, rfl⟩
  | some p =>
    obtain ⟨i, rest⟩ := p
    obtain ⟨hi, hrest⟩ := nextInput_mem hnext
    obtain ⟨mtime, msip, meip, waiting, outputs, hnone, hperform⟩ :=
      perform_of_disabled (s := { s with inputs := rest }) hmie (hinputs i hi)
    exact ⟨_, (step_perform hflag hnext).trans hperform,
      ⟨hflag, hmie, hnone, fun j hj => hinputs j (hrest j hj)⟩, rfl⟩

/-- Settles O47: the step of every unpreempted state, and with it every run. -/
theorem noPreemptionWithTheEnableClear : Obligations.NoPreemptionWithTheEnableClear :=
  ⟨step_of_unpreempted, runSteps_of_step (fun _ => rfl) unpreemptedFrame_trans step_of_unpreempted⟩

end Sys2Proof.Proofs.Invariants
end

section
/-! PROOFS. The CSR commands once more: which bits a set or clear reaches (40_csr_ops.md R110), what the two operand
forms share (30_encoding.md R83, R91), the narrow machine (10_state.md R46) and the configured numbers (00_scope.md R8).
-/

open Sys2Proof Sys2Proof.Machine Sys2Proof.Spec Sys2Proof.Proofs.Encoding Sys2Proof.Proofs.CsrOps
  Sys2Proof.Proofs.TimerOps Sys2Proof.Proofs.EncodeDecode Sys2Proof.Proofs.StepEffects Sys2Proof.Proofs.Invariants

namespace Sys2Proof.Proofs.CsrBits

/-! ## Refusing (40_csr_ops.md R102) -/

theorem testBit_andNot (a b k : Nat) : (andNot a b).testBit k = (a.testBit k && !b.testBit k) := by
  rw [andNot, Nat.testBit_xor, Nat.testBit_and]
  cases a.testBit k <;> cases b.testBit k <;> rfl

/-- An update refuses exactly the store the rule refuses. -/
theorem exec_refused_iff {full : Bool} {i : Selector → Instr} {newOf : State → Nat → Nat} {s : State} {r : Csr}
    (hi : IsUpdate full i newOf) (h : Decided s.config) :
    exec (i (csrNumber r)) s = .refused .reservedTvecMode ↔ refusesTvec full r (newOf s (csrValue s r)) s := by
  by_cases hr : refusesTvec full r (newOf s (csrValue s r)) s
  · exact iff_of_true (hi.exec_refuses h hr) hr
  · exact iff_of_false (by rw [hi.exec_completes h hr]; exact nofun) hr

theorem refusesTvec_clear_iff (s : State) (mask : Nat) :
    refusesTvec false .mtvec (andNot (csrValue s .mtvec) mask) s ↔
      s.tvecInstalled = true ∧ (csrValue s .mtvec).testBit 1 = true ∧ mask.testBit 1 = false := by
  simp [refusesTvec, testBit_andNot]

/-- Settles O15: both forms of the clear are updates by the difference. -/
theorem clearRefusesOnlyAReservedBitAlreadySet : Obligations.ClearRefusesOnlyAReservedBitAlreadySet := by
  intro s imm h
  simp only [List.forall_mem_cons, List.not_mem_nil, false_imp_iff, implies_true, and_true]
  exact ⟨(exec_refused_iff csrClear_isUpdate h).trans (refusesTvec_clear_iff s _),
    (exec_refused_iff (csrClearI_isUpdate imm) h).trans (refusesTvec_clear_iff s _)⟩

/-! ## The bits of a register after a store (10_state.md R26 to R33) -/

theorem csrValue_lt_wordSize (s : State) (r : Csr) : csrValue s r < wordSize s := by
  have hfields : 2 ^ 13 ≤ wordSize s := by
    rw [wordSize]
    cases s.config.xlen <;> decide
  have hmod : ∀ n : Nat, n % wordSize s < wordSize s := fun n => Nat.mod_lt _ (Nat.two_pow_pos _)
  cases r with
  | mtvec | mcause | mtval => exact hmod _
  | mepc => exact (Nat.div_mul_le_self _ _).trans_lt (hmod _)
  | mstatus =>
    refine lt_of_lt_of_le ?_ hfields
    rw [csrValue]
    cases s.mstatus.mpie <;> cases s.mstatus.mie <;> decide
  | mie =>
    refine lt_of_lt_of_le ?_ hfields
    rw [csrValue]
    cases s.mie.meie <;> cases s.mie.mtie <;> cases s.mie.msie <;> decide
  | mip =>
    refine lt_of_lt_of_le ?_ hfields
    rw [csrValue, ← mtip_toNat]
    cases s.meipIn <;> cases s.mtip <;> cases s.msipIn <;> decide

theorem testBit_csrValue_of_le (s : State) (r : Csr) {k : Nat} (hk : xlenBits s.config.xlen ≤ k) :
    (csrValue s r).testBit k = false :=
  Nat.testBit_lt_two_pow ((csrValue_lt_wordSize s r).trans_le (Nat.pow_le_pow_right (by decide) hk))

/-- A bit the store of a set or clear reaches: a writable one, or the reserved one of an installed mtvec, of which only
a 0 is stored. -/
def ReachedBit (s : State) (r : Csr) (k : Nat) : Prop :=
  writableBit s r k ∨ (r = .mtvec ∧ s.tvecInstalled = true ∧ k = 1)

theorem testBit_mod_wordSize {s : State} (n : Nat) {k : Nat} (hk : k < xlenBits s.config.xlen) :
    (n % wordSize s).testBit k = n.testBit k := by
  rw [wordSize, Nat.testBit_mod_two_pow, decide_eq_true hk, Bool.true_and]

theorem word_mod_mod (s : State) (n : Nat) : (word (n % wordSize s)).toNat % wordSize s = n % wordSize s := by
  rw [wordSize, toNat_word_mod, Nat.mod_mod]

/-- The value of mepc at and above bit 2. -/
theorem testBit_aligned (n : Nat) {k : Nat} (hk : 2 ≤ k) : (n / 4 * 4).testBit k = n.testBit k := by
  rw [show (4 : Nat) = 2 ^ 2 from rfl, Nat.testBit_mul_two_pow, Nat.testBit_div_two_pow, decide_eq_true hk,
    Bool.true_and, Nat.sub_add_cancel hk]

theorem csrValue_stored_mepc (full : Bool) (new : Nat) (s : State) :
    csrValue (stored full .mepc new s) .mepc = new % wordSize s / 4 * 4 := by
  have hlt : new % wordSize s / 4 * 4 < wordSize s :=
    (Nat.div_mul_le_self _ _).trans_lt (Nat.mod_lt _ (Nat.two_pow_pos _))
  show (word (new % wordSize s / 4 * 4)).toNat % wordSize s / 4 * 4 = _
  rw [TrapDispatch.word_toNat_of_lt hlt, Nat.mod_eq_of_lt hlt, Nat.mul_div_cancel _ (by decide)]

theorem stored_mtvec_of_installed {full : Bool} {s : State} (hon : s.tvecInstalled = true) (new : Nat) :
    stored full .mtvec new s = { s with mtvec := word (new % wordSize s), tvecInstalled := true } := by
  rw [stored, if_neg]
  simp [hon]

theorem testBit_stored_of_reached {s : State} {full : Bool} {r : Csr} (new : Nat) {k : Nat} (hk : ReachedBit s r k) :
    (csrValue (stored full r new s) r).testBit k = new.testBit k := by
  have hone : 1 < xlenBits s.config.xlen := by cases s.config.xlen <;> decide
  cases r with
  | mstatus =>
    have hbits : ∀ a b : Bool, (0x1800 + 2 ^ 7 * b.toNat + 2 ^ 3 * a.toNat).testBit 3 = a ∧
        (0x1800 + 2 ^ 7 * b.toNat + 2 ^ 3 * a.toNat).testBit 7 = b := by decide
    obtain ⟨hmie, hmpie⟩ := hbits (new.testBit 3) (new.testBit 7)
    obtain (rfl | rfl) | ⟨hr, -⟩ := hk
    · exact hmie
    · exact hmpie
    · cases hr
  | mie =>
    rw [stored, csrValue, testBit_threeBits]
    obtain (rfl | rfl | rfl) | ⟨hr, -⟩ := hk
    · simp
    · simp
    · simp
    · cases hr
  | mtvec =>
    obtain ⟨hon, hlt⟩ : s.tvecInstalled = true ∧ k < xlenBits s.config.xlen := by
      obtain ⟨hon, -, hlt⟩ | ⟨-, hon, rfl⟩ := hk
      · exact ⟨hon, hlt⟩
      · exact ⟨hon, hone⟩
    rw [stored_mtvec_of_installed hon]
    exact (congrArg (Nat.testBit · k) (word_mod_mod s new)).trans (testBit_mod_wordSize new hlt)
  | mepc =>
    obtain ⟨htwo, hlt⟩ | ⟨hr, -⟩ := hk
    · rw [csrValue_stored_mepc, testBit_aligned _ htwo, testBit_mod_wordSize new hlt]
    · cases hr
  | mcause | mtval =>
    obtain hlt | ⟨hr, -⟩ := hk
    · exact (congrArg (Nat.testBit · k) (word_mod_mod s new)).trans (testBit_mod_wordSize new hlt)
    · cases hr
  | mip =>
    obtain hno | ⟨hr, -⟩ := hk
    · exact hno.elim
    · cases hr

theorem testBit_stored_of_not_reached {s : State} (h : Decided s.config) {r : Csr} (new : Nat) {k : Nat}
    (hk : ¬ ReachedBit s r k) : (csrValue (stored false r new s) r).testBit k = (csrValue s r).testBit k := by
  have hbeyond : xlenBits s.config.xlen ≤ k →
      (csrValue (stored false r new s) r).testBit k = (csrValue s r).testBit k := fun hle => by
    rw [testBit_csrValue_of_le s r hle, testBit_csrValue_of_le _ r (by rwa [stored_config])]
  obtain ⟨hwritable, hreserved⟩ := not_or.mp hk
  cases r with
  | mstatus => exact testBit_csrValue_stored h false new (not_or.mp hwritable)
  | mie =>
    obtain ⟨hmsi, hrest⟩ := not_or.mp hwritable
    exact testBit_csrValue_stored h false new ⟨hmsi, not_or.mp hrest⟩
  | mtvec =>
    by_cases hoff : s.tvecInstalled = false
    · rw [stored, if_pos ⟨hoff, rfl⟩]
    · have hon : s.tvecInstalled = true := Bool.eq_true_of_not_eq_false hoff
      have hone : k ≠ 1 := fun hk => hreserved ⟨rfl, hon, hk⟩
      exact hbeyond (Nat.le_of_not_lt fun hlt => hwritable ⟨hon, hone, hlt⟩)
  | mepc =>
    by_cases htwo : 2 ≤ k
    · exact hbeyond (Nat.le_of_not_lt fun hlt => hwritable ⟨htwo, hlt⟩)
    · exact testBit_csrValue_stored h false new (Nat.lt_of_not_le htwo)
  | mcause | mtval => exact hbeyond (Nat.le_of_not_lt hwritable)
  | mip => rfl

/-! ## Set and clear (40_csr_ops.md R110) -/

/-- An update that computes each bit of its mask as `b` and keeps the others does so in the register: bits outside the
mask keep their value, and writable bits inside it become `b`. -/
theorem exec_maskedUpdate {i : Selector → Instr} {newOf : State → Nat → Nat} {s : State} {r : Csr} {mask : Nat}
    {b : Bool} (hi : IsUpdate false i newOf) (h : Decided s.config)
    (hnew : ∀ k, (newOf s (csrValue s r)).testBit k = if mask.testBit k then b else (csrValue s r).testBit k)
    (hr : ¬ refusesTvec false r (newOf s (csrValue s r)) s) :
    ∃ t, exec (i (csrNumber r)) s = .next t ∧ ∀ k,
      (mask.testBit k = false → (csrValue t r).testBit k = (csrValue s r).testBit k) ∧
      (mask.testBit k = true → writableBit s r k → (csrValue t r).testBit k = b) := by
  refine ⟨_, hi.exec_completes h hr, fun k => ⟨fun hout => ?_, fun hin hw => ?_⟩⟩
  · rw [csrValue_outputs]
    by_cases hk : ReachedBit s r k
    · rw [testBit_stored_of_reached _ hk, hnew, if_neg (by rw [hout]; decide)]
    · exact testBit_stored_of_not_reached h _ hk
  · rw [csrValue_outputs, testBit_stored_of_reached _ (.inl hw), hnew, if_pos hin]

theorem testBit_union (old mask k : Nat) :
    (old ||| mask).testBit k = if mask.testBit k then true else old.testBit k := by
  rw [Nat.testBit_or]
  cases mask.testBit k <;> simp

theorem testBit_difference (old mask k : Nat) :
    (andNot old mask).testBit k = if mask.testBit k then false else old.testBit k := by
  rw [testBit_andNot]
  cases mask.testBit k <;> simp

/-- Settles O17: a set computes the bits of its mask as 1, a clear as 0. -/
theorem setAndClearTouchOnlyTheirMask : Obligations.SetAndClearTouchOnlyTheirMask := by
  intro s r imm h
  simp only [List.forall_mem_cons, List.not_mem_nil, false_imp_iff, implies_true, and_true]
  exact ⟨⟨exec_maskedUpdate csrSet_isUpdate h (testBit_union _ _),
      exec_maskedUpdate (csrSetI_isUpdate imm) h (testBit_union _ _)⟩,
    exec_maskedUpdate csrClear_isUpdate h (testBit_difference _ _),
    exec_maskedUpdate (csrClearI_isUpdate imm) h (testBit_difference _ _)⟩

/-! ## The pending register (41_timer_ops.md R126, 10_state.md R33) -/

/-- A command on mip answers its value and stores nothing. -/
theorem exec_mip {s : State} (h : Decided s.config) {imm : Imm5} {i : Instr}
    (hi : i ∈ csrCommands (csrNumber .mip) imm) :
    exec i s = .next { s with outputs := okOutputs (csrValue s .mip) } := by
  rcases csrCommands_cases hi with rfl | ⟨full, command, newOf, rfl, hupdate, -⟩
  · exact exec_csrRead h .mip
  · exact hupdate.exec_completes h fun ⟨hr, _⟩ => nomatch hr

theorem testBit_mip_timer (s : State) : (csrValue s .mip).testBit 7 = s.mtip := by
  rw [csrValue, ← mtip_toNat, testBit_threeBits]
  simp

/-- Settles O28: bit 7 of the value read is the comparison, and no command stores in mip. -/
theorem timerRequestIsALevel : Obligations.TimerRequestIsALevel := by
  refine ⟨fun s t h hexec => ?_, fun s imm h i hi => exec_mip h hi⟩
  have hread : exec (.csrRead 0x344#12) s = .next { s with outputs := okOutputs (csrValue s .mip) } :=
    exec_csrRead h .mip
  rw [hread] at hexec
  cases hexec
  refine ⟨_, rfl, ?_⟩
  rw [← csrRead_eq_word h, ← testBit_csrValue h, testBit_mip_timer, State.mtip, decide_eq_true_iff]

/-! ## The operand port (30_encoding.md R83, R84) -/

/-- The outcome with the given value on the operand port. -/
def withWdata (w : Word) : Result → Result
  | .next t => .next { t with wdata := w }
  | .fault f => .fault f
  | .refused e => .refused e

theorem csrStore_wdata (full : Bool) (r : Csr) (new w : Word) (s : State) :
    csrStore full r new { s with wdata := w } = withWdata w (csrStore full r new s) := by
  cases r with
  | mtvec =>
    simp only [csrStore, tvecStore]
    split_ifs <;> rfl
  | mstatus | mie | mepc | mcause | mtval | mip => rfl

theorem csrRead_wdata (s : State) (w : Word) (r : Csr) : csrRead { s with wdata := w } r = csrRead s r := by
  cases r <;> rfl

/-- An update reads the port through its new value alone. -/
theorem csrUpdate_wdata (sel : Selector) (full : Bool) (newOf : Word → Word) (w : Word) (s : State) :
    csrUpdate sel full newOf { s with wdata := w } = withWdata w (csrUpdate sel full newOf s) := by
  unfold csrUpdate
  cases hr : Csr.ofSelector s.config sel with
  | none => rfl
  | some r =>
    simp only [csrRead_wdata]
    exact csrStore_wdata full r _ w (s.answerOk (csrRead s r))

theorem execCsrRead_wdata (sel : Selector) (w : Word) (s : State) :
    execCsrRead sel { s with wdata := w } = withWdata w (execCsrRead sel s) := by
  unfold execCsrRead
  cases Csr.ofSelector s.config sel with
  | none => rfl
  | some r =>
    simp only [csrRead_wdata]
    rfl

/-! ## Immediate forms (30_encoding.md R83) -/

theorem wdataOperand_imm (s : State) (imm : Imm5) :
    wdataOperand { s with wdata := word imm.toNat } = immOperand imm := by
  have hlt := imm_lt_wordSize s imm
  have hword : (word imm.toNat).toNat = imm.toNat := TrapDispatch.word_toNat_of_lt hlt
  rw [← BitVec.toNat_inj, operand_toNat, immOperand_toNat, hword]
  exact Nat.mod_eq_of_lt hlt

/-- An update by the extended immediate on the port, put back on the port as it was, is the update by the immediate. -/
theorem csrUpdate_imm (sel : Selector) (full : Bool) (newOf : Word → Word → Word) (imm : Imm5) (s : State) :
    csrUpdate sel full (newOf (immOperand imm)) s =
      withWdata s.wdata (csrUpdate sel full (newOf (wdataOperand { s with wdata := word imm.toNat }))
        { s with wdata := word imm.toNat }) := by
  rw [wdataOperand_imm]
  exact csrUpdate_wdata sel full (newOf (immOperand imm)) s.wdata { s with wdata := word imm.toNat }

theorem exec_csrWriteI_eq (sel : Selector) (imm : Imm5) (s : State) :
    exec (.csrWriteI sel imm) s = withWdata s.wdata (exec (.csrWrite sel) { s with wdata := word imm.toNat }) := by
  rw [exec_csrWriteI, exec_csrWrite]
  exact csrUpdate_imm sel true (fun v _ => v) imm s

theorem exec_csrSetI_eq (sel : Selector) (imm : Imm5) (s : State) :
    exec (.csrSetI sel imm) s = withWdata s.wdata (exec (.csrSet sel) { s with wdata := word imm.toNat }) := by
  rw [exec_csrSetI, exec_csrSet]
  exact csrUpdate_imm sel false (fun v old => old ||| v) imm s

theorem exec_csrClearI_eq (sel : Selector) (imm : Imm5) (s : State) :
    exec (.csrClearI sel imm) s = withWdata s.wdata (exec (.csrClear sel) { s with wdata := word imm.toNat }) := by
  rw [exec_csrClearI, exec_csrClear]
  exact csrUpdate_imm sel false (fun v old => old &&& ~~~v) imm s

/-- An outcome that is another one up to the port has its next state and its refusal up to the port. -/
theorem outcome_of_eq_withWdata {a b : Result} {w : Word} (h : a = withWdata w b) :
    (∀ t, b = .next t → a = .next { t with wdata := w }) ∧ ∀ e, b = .refused e → a = .refused e :=
  ⟨fun _ hb => by rw [h, hb, withWdata], fun _ hb => by rw [h, hb, withWdata]⟩

/-- Settles O19: each immediate form is its register form up to the port. -/
theorem immediateFormsEqualRegisterForms : Obligations.ImmediateFormsEqualRegisterForms := by
  intro s sel imm
  simp only [List.forall_mem_cons, List.not_mem_nil, false_imp_iff, implies_true, and_true]
  exact ⟨outcome_of_eq_withWdata (exec_csrWriteI_eq sel imm s), outcome_of_eq_withWdata (exec_csrSetI_eq sel imm s),
    outcome_of_eq_withWdata (exec_csrClearI_eq sel imm s)⟩

/-! ## The driver's calls (30_encoding.md R91) -/

theorem perform_of_decode {w : CommandWord} {i : Instr} (h : decode w = .ok i) (d : Word) (s : State) :
    perform (.command w d) s = exec i { s with wdata := d } := by
  rw [perform, performCommand, h]

theorem perform_encode (i : Instr) (d : Word) (s : State) :
    perform (.command (encode i) d) s = exec i { s with wdata := d } :=
  perform_of_decode (decodeOfEncodeIsTheCommand i) d s

/-- A mask below 32 is the extension of its five low bits. -/
theorem word_setWidth_of_lt {mask : Word} (h : mask.toNat < 32) : word (mask.setWidth 5).toNat = mask := by
  have hmod : (mask.setWidth 5).toNat = mask.toNat := by
    rw [BitVec.toNat_setWidth]
    exact Nat.mod_eq_of_lt h
  rw [hmod, word_toNat]

/-- A call that expands to the immediate form of a command for a mask below 32, and to its register form otherwise, does
what the register form does, up to the port. -/
theorem perform_maskCall {call : DriverCall} {immCommand command : Instr} {mask : Word} {s t : State}
    (hexpand : expandCall s.config call = if mask.toNat < 32 then (immCommand, 0) else (command, mask))
    (himm : mask.toNat < 32 →
      exec immCommand { s with wdata := 0 } = withWdata 0 (exec command { s with wdata := mask }))
    (h : exec command { s with wdata := mask } = .next t) :
    ∃ u, perform (callInput s.config call) s = .next u ∧ t = { u with wdata := mask } := by
  have hport : t.wdata = mask := (exec_effect h).frame.wdata
  rw [callInput, perform_encode, hexpand]
  by_cases hlt : mask.toNat < 32
  · rw [if_pos hlt]
    refine ⟨_, (outcome_of_eq_withWdata (himm hlt)).1 t h, ?_⟩
    rw [← hport]
  · rw [if_neg hlt]
    refine ⟨t, h, ?_⟩
    rw [← hport]

/-- Settles O60: the two calls are calls of a mask. -/
theorem driverSetAndClearMeetTheirContract : Obligations.DriverSetAndClearMeetTheirContract := by
  intro s r mask
  refine ⟨fun t h => perform_maskCall rfl (fun hlt => ?_) h, fun t h => perform_maskCall rfl (fun hlt => ?_) h⟩
  · have heq := exec_csrSetI_eq (r.selector s.config) (mask.setWidth 5) { s with wdata := 0 }
    rwa [word_setWidth_of_lt hlt] at heq
  · have heq := exec_csrClearI_eq (r.selector s.config) (mask.setWidth 5) { s with wdata := 0 }
    rwa [word_setWidth_of_lt hlt] at heq

/-! ## The narrow machine (10_state.md R46) -/

/-- A CSR command reads the port through its operand alone. -/
theorem exec_csrCommand_wdata {s : State} {w : Word} {sel : Selector} {imm : Imm5} {i : Instr}
    (hw : wdataOperand { s with wdata := w } = wdataOperand s) (hi : i ∈ csrCommands sel imm) :
    exec i { s with wdata := w } = withWdata w (exec i s) := by
  simp only [csrCommands, List.mem_cons, List.not_mem_nil, or_false] at hi
  rcases hi with rfl | rfl | rfl | rfl | rfl | rfl | rfl
  · exact execCsrRead_wdata sel w s
  · rw [exec_csrWrite, exec_csrWrite, hw, csrUpdate_wdata]
  · rw [exec_csrSet, exec_csrSet, hw, csrUpdate_wdata]
  · rw [exec_csrClear, exec_csrClear, hw, csrUpdate_wdata]
  · rw [exec_csrWriteI, exec_csrWriteI, csrUpdate_wdata]
  · rw [exec_csrSetI, exec_csrSetI, csrUpdate_wdata]
  · rw [exec_csrClearI, exec_csrClearI, csrUpdate_wdata]

/-- A CSR command answers 0 or the value of a register. -/
theorem csrCommand_rdata {s t : State} {sel : Selector} {imm : Imm5} {i : Instr} (h : Decided s.config)
    (hi : i ∈ csrCommands sel imm) (hexec : exec i s = .next t) :
    ∃ v, t.outputs.rdata = some v ∧ v.toNat < wordSize s := by
  by_cases hnamed : ∃ r, sel = csrNumber r
  · obtain ⟨r, rfl⟩ := hnamed
    have hlt := csrValue_lt_wordSize s r
    have hword : (word (csrValue s r)).toNat < wordSize s := by rwa [TrapDispatch.word_toNat_of_lt hlt]
    refine ⟨_, ?_, hword⟩
    rcases csrCommands_cases hi with rfl | ⟨full, command, newOf, rfl, hupdate, -⟩
    · cases (exec_csrRead h r).symm.trans hexec
      rfl
    · by_cases hr : refusesTvec full r (newOf s (csrValue s r)) s
      · cases (hupdate.exec_refuses h hr).symm.trans hexec
      · cases (hupdate.exec_completes h hr).symm.trans hexec
        rfl
  · have hne : ∀ r, sel ≠ csrNumber r := fun r hr => hnamed ⟨r, hr⟩
    refine ⟨0, ?_, Nat.two_pow_pos _⟩
    rcases csrCommands_cases hi with rfl | ⟨full, command, newOf, rfl, hupdate, -⟩
    · cases (execCsrRead_of_unnamed (namesCsr_of_ne_csrNumber h hne)).symm.trans hexec
      rfl
    · cases (hupdate.exec_unnamed h hne).symm.trans hexec
      rfl

/-- Settles O20: with XLEN = 32 the operand is the low half, and a register has 32 bits. -/
theorem narrowMachineIgnoresTheHighHalf : Obligations.NarrowMachineIgnoresTheHighHalf := by
  intro s w sel imm h hx32 hlow i hi
  have hsize : 2 ^ xlenBits s.config.xlen = 2 ^ 32 := by rw [hx32]; rfl
  have hw : wdataOperand { s with wdata := w } = wdataOperand s := by
    rw [← BitVec.toNat_inj, operand_toNat, operand_toNat, hsize]
    exact hlow
  obtain ⟨hnext, hrefused⟩ := outcome_of_eq_withWdata (exec_csrCommand_wdata hw hi)
  refine ⟨fun t hexec => ⟨hnext t hexec, ?_⟩, hrefused⟩
  rw [← hsize]
  exact csrCommand_rdata h hi hexec

/-! ## The configured numbers (00_scope.md R8) -/

theorem getLsbD_bitAt_self (b : Bool) {n : Nat} (h : n < 64) : (bitAt b n).getLsbD n = b := by
  simp [bitAt, h]

theorem xlenBits_le (x : XLen) : xlenBits x ≤ 64 := by cases x <;> decide

/-- Each source has its own bit of mie and mip. -/
theorem getLsbD_sourceBits {c : Config} (h : LegalConfig c) (b : IrqSource → Bool) (k : IrqSource) :
    (sourceBits c b).getLsbD (irqNumber c k) = b k := by
  have hlt : irqNumber c k < 64 := (h.sourceBit k).trans_le (xlenBits_le c.xlen)
  have hbit : ∀ j, (bitAt (b j) (irqNumber c j)).getLsbD (irqNumber c k) = (decide (j = k) && b k) := fun j => by
    by_cases hj : j = k
    · rw [hj, getLsbD_bitAt_self _ hlt, decide_eq_true rfl, Bool.true_and]
    · rw [getLsbD_bitAt_of_ne _ fun heq => hj (h.sources j k heq.symm), decide_eq_false hj, Bool.false_and]
  simp only [sourceBits, BitVec.getLsbD_or, hbit]
  cases k <;> simp

/-- The field MPP is two bits that read 1. -/
theorem getLsbD_three_shiftLeft {n k : Nat} (hk : k < 64) :
    (3#64 <<< n).getLsbD k = (decide (k = n) || decide (k = n + 1)) := by
  have hthree : ∀ m, (3#64).getLsbD m = (decide (m = 0) || decide (m = 1)) := fun m => by
    rcases Nat.lt_or_ge m 2 with hm | hm
    · revert m
      decide
    · have hlt : (3 : Nat) < 2 ^ m := lt_of_lt_of_le (by decide) (Nat.pow_le_pow_right (by decide) hm)
      have hzero : Nat.testBit 3 m = false := Nat.testBit_lt_two_pow hlt
      rw [BitVec.getLsbD_ofNat, hzero, Bool.and_false, decide_eq_false (by omega), decide_eq_false (by omega)]
      rfl
  rw [BitVec.getLsbD_shiftLeft, hthree, decide_eq_true hk, Bool.true_and, Bool.eq_iff_iff]
  simp only [Bool.and_eq_true, Bool.or_eq_true, Bool.not_eq_true', decide_eq_true_eq, decide_eq_false_iff_not]
  omega

/-- The three fields of mstatus stand at their own bits. -/
theorem getLsbD_csrRead_status {s : State} (h : LegalConfig s.config) :
    (csrRead s .mstatus).getLsbD s.config.statusMie = s.mstatus.mie ∧
    (csrRead s .mstatus).getLsbD s.config.statusMpie = s.mstatus.mpie ∧
    (csrRead s .mstatus).getLsbD s.config.statusMpp = true ∧
    (csrRead s .mstatus).getLsbD (s.config.statusMpp + 1) = true := by
  have hxlen := xlenBits_le s.config.xlen
  have hbit : ∀ n ∈ [s.config.statusMie, s.config.statusMpie, s.config.statusMpp + 1], n < 64 := fun n hn =>
    (h.statusBit n hn).trans_le hxlen
  simp only [List.forall_mem_cons, List.not_mem_nil, false_imp_iff, implies_true, and_true] at hbit
  obtain ⟨hmie, hmpie, hmpp⟩ := hbit
  have hdistinct := h.statusBits
  simp only [List.nodup_cons, List.mem_cons, List.not_mem_nil, or_false, not_or, not_false_eq_true, List.nodup_nil,
    and_true] at hdistinct
  obtain ⟨⟨hmie_mpie, hmie_mpp, hmie_mpp'⟩, ⟨hmpie_mpp, hmpie_mpp'⟩, -⟩ := hdistinct
  simp only [csrRead, BitVec.getLsbD_or]
  refine ⟨?_, ?_, ?_, ?_⟩
  · rw [getLsbD_bitAt_self _ hmie, getLsbD_bitAt_of_ne _ hmie_mpie, getLsbD_three_shiftLeft hmie]
    simp [hmie_mpp, hmie_mpp']
  · rw [getLsbD_bitAt_self _ hmpie, getLsbD_bitAt_of_ne _ (Ne.symm hmie_mpie), getLsbD_three_shiftLeft hmpie]
    simp [hmpie_mpp, hmpie_mpp']
  · rw [getLsbD_three_shiftLeft (Nat.lt_of_succ_lt hmpp)]
    simp
  · rw [getLsbD_three_shiftLeft hmpp]
    simp

/-- Settles O8: the read answers `csrRead`, whose fields stand at the configured bits. -/
theorem readsFollowTheConfiguredNumbers : Obligations.ReadsFollowTheConfiguredNumbers := by
  intro s r h
  refine ⟨csrRead s r, ?_, ?_⟩
  · show execCsrRead (r.selector s.config) s = _
    rw [execCsrRead, Csr.ofSelector_selector h.selectors r, ← answerOk_eq_of_toNat s rfl]
  · cases r with
    | mstatus => exact getLsbD_csrRead_status h
    | mie => exact getLsbD_sourceBits h s.enabled
    | mip => exact getLsbD_sourceBits h s.pending
    | mtvec => exact csrRead_mtvec_toNat s
    | mepc => exact csrRead_mepc_toNat s
    | mcause => exact csrRead_mcause_toNat s
    | mtval => exact csrRead_mtval_toNat s

end Sys2Proof.Proofs.CsrBits
end

section
/-! PROOFS. The timer over time and through the memory map, and the wait: the run of ticks to a deadline
(41_timer_ops.md R125, R126), WAIT and what a wait holds (42_trap_dispatch.md R147, 10_state.md R40), and the mapped
accesses (20_memory.md R61, R63). -/

open Sys2Proof Sys2Proof.Machine Sys2Proof.Spec Sys2Proof.Proofs.Encoding Sys2Proof.Proofs.CsrOps
  Sys2Proof.Proofs.TimerOps Sys2Proof.Proofs.TrapDispatch Sys2Proof.Proofs.Invariants

namespace Sys2Proof.Proofs.TimerRuns

/-! ## Re-arming in three commands (30_encoding.md R91) -/

/-- Settles O29: each of the three commands by its own rule. -/
theorem rearmEqualsItsThreeCommands : Obligations.RearmEqualsItsThreeCommands := by
  intro s
  have hread := exec_tmrRead s .time
  have hlast : exec (.tmrWrite 0x003#12)
      { s with outputs := okOutputs (timerValue s .time), wdata := s.mtime } = .next _ :=
    exec_tmrWrite (r := .last) rfl
  have hcmp : exec (.tmrWrite 0x001#12)
      { s with outputs := okOutputs 0, lastTime := s.mtime, wdata := s.mtime + s.period } = .next _ :=
    exec_tmrWrite (r := .timecmp) rfl
  exact ⟨_, _, _, _, hread, congrArg some (word_toNat s.mtime), hlast, hcmp, rfl, rfl⟩

/-! ## WAIT and the wait (42_trap_dispatch.md R147, 10_state.md R40) -/

/-- Settles O33: the block waits on exactly where the wake condition fails. -/
theorem waitSleepsUnlessWakeHolds : Obligations.WaitSleepsUnlessWakeHolds := by
  refine ⟨by decide, fun s => ⟨{ s with waiting := s.waiting || !s.wake }.answerOk 0, rfl, rfl, ?_⟩⟩
  rw [State.answerOk_waiting, Bool.or_eq_true, Bool.not_eq_true', ← wake_iff, Bool.not_eq_true]

/-- Settles O34: the inputs of the hart are passed over. -/
theorem waitingHoldsTheHart : Obligations.WaitingHoldsTheHart := by
  refine ⟨fun s held e rest hflag hwait hinputs hheld hother => ?_, fun s hflag hwait hheld => ?_⟩
  · exact step_perform hflag (by rw [hwait, hinputs, nextInput_held held rest hheld hother])
  · exact step_of_no_input hflag (by rw [hwait, nextInput_all_held hheld])

/-! ## Ticks to a deadline (41_timer_ops.md R125, R126) -/

theorem mtip_eq_one_iff (s : State) : mtip s = 1 ↔ s.mtimecmp.toNat ≤ s.mtime.toNat := by
  unfold mtip
  split <;> omega

/-- A state that is another one but for the counter, the wait, the inputs and the outputs. -/
def SameButTime (s t : State) : Prop := t = { s with
    mtime := t.mtime, waiting := t.waiting, inputs := t.inputs, outputs := t.outputs }

/-- The wake condition outlasts an advance of the counter, because the request is a level. -/
theorem wake_of_later {s t : State} (h : SameButTime s t) (hle : s.mtime.toNat ≤ t.mtime.toNat) (hwake : Wake s) :
    Wake t := by
  have hmtip : s.mtip = true → t.mtip = true := by
    rw [h]
    simp only [State.mtip, decide_eq_true_eq]
    exact fun hs => hs.trans hle
  have hany : s.anyPendEn = true → t.anyPendEn = true := by
    rw [h] at hmtip ⊢
    simp only [State.anyPendEn, State.pendEn, State.pending, State.enabled, Bool.or_eq_true, Bool.and_eq_true]
    exact Or.imp_left (Or.imp_right (And.imp_left hmtip))
  rw [← wake_iff] at hwake ⊢
  have hconfig : t.config = s.config := by rw [h]
  have hmie : t.mstatus = s.mstatus := by rw [h]
  unfold State.wake State.deliverable at hwake ⊢
  rw [hconfig, hmie]
  split at hwake
  · rw [if_pos (by assumption)]
    exact hany hwake
  · rw [if_neg (by assumption)]
    rw [Bool.and_eq_true] at hwake ⊢
    exact hwake.imp_right hany

/-- The state `n` ticks on, `rest` the inputs after them and the wait as it turned out. -/
def afterTicks (s : State) (n : Nat) (rest : List Input) (waiting : Bool) : State := { s with
    mtime := word (s.mtime.toNat + n), inputs := rest, outputs := doneOutputs, waiting := waiting }

theorem afterTicks_mtime_toNat {s : State} {n : Nat} (h : s.mtime.toNat + n < 2 ^ 64) (rest : List Input) (w : Bool) :
    (afterTicks s n rest w).mtime.toNat = s.mtime.toNat + n := by
  show (word (s.mtime.toNat + n)).toNat = _
  rw [word, BitVec.toNat_ofNat, Nat.mod_eq_of_lt h]

theorem sameButTime_afterTicks (s : State) (n m : Nat) (l rest : List Input) (v w : Bool) :
    SameButTime (afterTicks s n l v) (afterTicks s m rest w) := rfl

/-- A tick that does not wrap moves the counter by 1. -/
theorem tick_eq_afterTicks {s : State} (h : s.mtime.toNat + 1 < 2 ^ 64) (rest : List Input) :
    { s with inputs := rest }.tick = afterTicks s 1 rest { s with inputs := rest }.tick.waiting := by
  conv_lhs => rw [tick_eq]
  rw [Nat.mod_eq_of_lt h]
  rfl

theorem afterTicks_afterTicks {s : State} {n : Nat} (h : s.mtime.toNat + n < 2 ^ 64) (l rest : List Input)
    (v w : Bool) :
    afterTicks (afterTicks s n l v) 1 rest w = afterTicks s (n + 1) rest w := by
  rw [afterTicks, afterTicks_mtime_toNat h]
  rfl

/-- By induction on the ticks, the last one apart: it moves the counter by 1 and ends the wait where the wake condition
holds by then, which it does from the first tick that makes it hold on. -/
theorem runSteps_ticks {s : State} (hflag : s.faultFlag = none) (n : Nat) :
    ∀ rest : List Input, s.inputs = List.replicate (n + 1) .tick ++ rest → s.mtime.toNat + (n + 1) < 2 ^ 64 →
      ∃ w, runSteps (n + 1) s = .next (afterTicks s (n + 1) rest w) ∧
        (w = true ↔ s.waiting = true ∧ ¬ Wake (afterTicks s (n + 1) rest w)) := by
  induction n with
  | zero =>
    intro rest hinputs hwrap
    have hstep := step_tick hflag hinputs
    have hwait := tick_waiting_iff { s with inputs := rest }
    rw [tick_eq_afterTicks hwrap] at hstep hwait
    exact ⟨_, runSteps_snoc (runSteps_zero s) hstep, hwait⟩
  | succ n ih =>
    intro rest hinputs hwrap
    rw [List.replicate_succ', List.append_assoc] at hinputs
    obtain ⟨v, hrun, hv⟩ := ih (.tick :: rest) hinputs (by omega)
    have hlt : s.mtime.toNat + (n + 1) < 2 ^ 64 := by omega
    have hmtime := afterTicks_mtime_toNat hlt (.tick :: rest) v
    have hstep := step_tick (s := afterTicks s (n + 1) (.tick :: rest) v) hflag rfl
    have hwait := tick_waiting_iff { afterTicks s (n + 1) (.tick :: rest) v with inputs := rest }
    rw [tick_eq_afterTicks (by rw [hmtime]; omega), afterTicks_afterTicks hlt] at hstep hwait
    generalize { afterTicks s (n + 1) (.tick :: rest) v with inputs := rest }.tick.waiting = w at hstep hwait
    have hlater : Wake (afterTicks s (n + 1) (.tick :: rest) v) → Wake (afterTicks s (n + 1 + 1) rest w) :=
      wake_of_later (sameButTime_afterTicks ..) (by rw [hmtime, afterTicks_mtime_toNat hwrap]; omega)
    have hboth : w = true ↔ v = true ∧ ¬ Wake (afterTicks s (n + 1 + 1) rest w) := hwait
    refine ⟨w, runSteps_snoc hrun hstep, ?_⟩
    rw [hboth, hv, and_assoc, and_iff_right_of_imp (mt hlater)]

/-- Settles O30: the request is the comparison with the counter `n` ticks on. -/
theorem ticksReachTheDeadlineExactly : Obligations.TicksReachTheDeadlineExactly := by
  intro n s rest hflag hinputs hwrap hpos
  obtain ⟨m, rfl⟩ := Nat.exists_eq_add_of_lt hpos
  rw [Nat.zero_add] at hinputs hwrap ⊢
  obtain ⟨w, hrun, hwait⟩ := runSteps_ticks hflag m rest hinputs hwrap
  refine ⟨_, hrun, rfl, ?_, hwait⟩
  rw [mtip_eq_one_iff, afterTicks_mtime_toNat hwrap]
  rfl

/-! ## Mapped accesses (20_memory.md R61, R63) -/

section
variable (base : Nat) (whole lo hi : Selector) {addr : Nat}

theorem windowSelector_whole (ha : addr = base) (h : base % 8 = 0) :
    windowSelector base whole lo hi addr .bytes8 = some whole :=
  if_pos ⟨ha, ha ▸ h⟩

theorem windowSelector_low (ha : addr = base) (h : base % 8 = 0) :
    windowSelector base whole lo hi addr .bytes4 = some lo := by
  rw [windowSelector, if_pos (show addr % 4 = 0 by omega), if_pos ha]

theorem windowSelector_high (ha : addr = base + 4) (h : base % 8 = 0) :
    windowSelector base whole lo hi addr .bytes4 = some hi := by
  rw [windowSelector, if_pos (show addr % 4 = 0 by omega), if_neg (show ¬ addr = base by omega), if_pos ha]

/-- An access that begins in another window is none of this one. -/
theorem windowSelector_outside (h : addr < base ∨ base + 8 ≤ addr) (width : AccessWidth) :
    windowSelector base whole lo hi addr width = none := by
  cases width with
  | bytes8 => exact if_neg (by omega)
  | bytes4 =>
    rw [windowSelector, if_neg (show ¬ addr = base by omega), if_neg (show ¬ addr = base + 4 by omega), ite_self]
  | bytes2 | bytes1 => rfl

/-- A narrow or misaligned access is none of a window. -/
theorem windowSelector_odd {width : AccessWidth}
    (h : width = .bytes1 ∨ width = .bytes2 ∨ addr % accessBytes width ≠ 0) :
    windowSelector base whole lo hi addr width = none := by
  cases width with
  | bytes8 =>
    have hodd : addr % 8 ≠ 0 := by simpa [accessBytes] using h
    exact if_neg fun ⟨_, haligned⟩ => hodd haligned
  | bytes4 =>
    have hodd : addr % 4 ≠ 0 := by simpa [accessBytes] using h
    exact if_neg hodd
  | bytes2 | bytes1 => rfl

end

theorem mappedSelector_of_mtime {c : Config} {a : Word} {width : AccessWidth} {sel : Selector}
    (h : windowSelector c.mtimeAddr.toNat Config.tmrTime Config.tmrTimeLo Config.tmrTimeHi a.toNat width = some sel) :
    mappedSelector c a width = .ok sel := by
  rw [mappedSelector, h]

theorem mappedSelector_of_mtimecmp {c : Config} {a : Word} {width : AccessWidth} {sel : Selector}
    (hout : a.toNat < c.mtimeAddr.toNat ∨ c.mtimeAddr.toNat + 8 ≤ a.toNat)
    (h : windowSelector c.mtimecmpAddr.toNat Config.tmrTimecmp Config.tmrTimecmpLo Config.tmrTimecmpHi a.toNat width =
      some sel) : mappedSelector c a width = .ok sel := by
  rw [mappedSelector, windowSelector_outside _ _ _ _ hout, h]

theorem mappedSelector_of_odd {c : Config} {a : Word} {width : AccessWidth}
    (hbegins : c.mtimeAddr.toNat ≤ a.toNat ∧ a.toNat < c.mtimeAddr.toNat + 8 ∨
      c.mtimecmpAddr.toNat ≤ a.toNat ∧ a.toNat < c.mtimecmpAddr.toNat + 8)
    (hodd : width = .bytes1 ∨ width = .bytes2 ∨ a.toNat % accessBytes width ≠ 0) :
    mappedSelector c a width = .error .unsupportedTimerAccess := by
  have hbytes : 0 < accessBytes width := by cases width <;> decide
  have htouches : (touchesWindow c.mtimeAddr.toNat a.toNat (accessBytes width) ||
      touchesWindow c.mtimecmpAddr.toNat a.toNat (accessBytes width)) = true := by
    simp only [touchesWindow, Bool.or_eq_true, Bool.and_eq_true, decide_eq_true_eq]
    omega
  simp only [mappedSelector, windowSelector_odd _ _ _ _ hodd, htouches, if_true]

/-- The six mapped accesses are inside the address space and stand for their selectors. -/
theorem mappedSelector_of_mem {s : State} (h : WindowsApart s) {m : Nat × Nat × AccessWidth × Selector}
    (hm : m ∈ mappedAccesses s.config) {a : Word} (ha : a.toNat = m.1 + m.2.1) :
    a.toNat < wordSize s ∧ mappedSelector s.config a m.2.2.1 = .ok m.2.2.2 := by
  obtain ⟨htime, hcmp, hne, htimeFits, hcmpFits⟩ := h
  have hsize : wordSize s % 8 = 0 := by
    rw [wordSize]
    cases s.config.xlen <;> rfl
  simp only [mappedAccesses, List.mem_cons, List.not_mem_nil, or_false] at hm
  rcases hm with rfl | rfl | rfl | rfl | rfl | rfl <;> simp only [Nat.add_zero] at ha
  · exact ⟨by omega, mappedSelector_of_mtime (windowSelector_whole _ _ _ _ ha htime)⟩
  · exact ⟨by omega, mappedSelector_of_mtime (windowSelector_low _ _ _ _ ha htime)⟩
  · exact ⟨by omega, mappedSelector_of_mtime (windowSelector_high _ _ _ _ ha htime)⟩
  · exact ⟨by omega, mappedSelector_of_mtimecmp (by omega) (windowSelector_whole _ _ _ _ ha hcmp)⟩
  · exact ⟨by omega, mappedSelector_of_mtimecmp (by omega) (windowSelector_low _ _ _ _ ha hcmp)⟩
  · exact ⟨by omega, mappedSelector_of_mtimecmp (by omega) (windowSelector_high _ _ _ _ ha hcmp)⟩

/-- Settles O58: the step of a load or store is the command its selector says. -/
theorem mappedAccessesAreTimerCommands : Obligations.MappedAccessesAreTimerCommands := by
  intro s rest a v hready hapart m hm ha
  obtain ⟨hfits, hsel⟩ := mappedSelector_of_mem hapart hm ha
  refine ⟨fun hinputs => ?_, fun hinputs => ?_⟩
  · rw [step_of_ready hready hinputs, perform, performLoad,
      portWord_of_lt (s := { s with inputs := rest }) hfits, hsel]
  · rw [step_of_ready hready hinputs, perform, performStore,
      portWord_of_lt (s := { s with inputs := rest }) hfits, hsel]

/-- Settles O59: the access stands for no selector of either window, and touches the one it begins in. -/
theorem oddTimerAccessesAreRefused : Obligations.OddTimerAccessesAreRefused := by
  intro s rest a v width hready _ hfits hbegins hodd
  have hsel := mappedSelector_of_odd hbegins hodd
  refine ⟨fun hinputs => ?_, fun hinputs => ?_⟩
  · rw [step_of_ready hready hinputs, perform, performLoad,
      portWord_of_lt (s := { s with inputs := rest }) hfits, hsel]
  · rw [step_of_ready hready hinputs, perform, performStore,
      portWord_of_lt (s := { s with inputs := rest }) hfits, hsel]

end Sys2Proof.Proofs.TimerRuns
end

section
/-! PROOFS. Interrupts as they are taken and returned from: their order (60_exceptions.md R166), the table's slots
(42_trap_dispatch.md R144), entry and return (60_exceptions.md R170, R171, R176), and the enables under any run of sets,
clears and events (40_csr_ops.md R110). -/

open Sys2Proof Sys2Proof.Machine Sys2Proof.Spec Sys2Proof.Proofs.Encoding Sys2Proof.Proofs.CsrOps
  Sys2Proof.Proofs.TimerOps Sys2Proof.Proofs.TrapDispatch Sys2Proof.Proofs.Exceptions Sys2Proof.Proofs.Invariants
  Sys2Proof.Proofs.CsrBits

namespace Sys2Proof.Proofs.Interrupts

/-! ## Slots of an aligned table (42_trap_dispatch.md R144) -/

/-- Settles O40: at a base that is a multiple of 64 the sum does not wrap, and no bit of the offset meets one of the
base. -/
theorem alignedTableAddsOrOrsAlike : Obligations.AlignedTableAddsOrOrsAlike := by
  intro s code henter hv hstride hslots halign hcode
  have hbase : base s % 64 = 0 := halign ▸ henter.2 hv
  have hbase_lt : base s < wordSize s := (Nat.div_mul_le_self _ _).trans_lt (Nat.mod_lt _ (Nat.two_pow_pos _))
  have hsize : wordSize s % 64 = 0 := by
    rw [wordSize]
    cases s.config.xlen <;> rfl
  have hor : base s + 4 * code.toNat = base s ||| 4 * code.toNat := by
    have hsum := Nat.two_pow_add_eq_or_of_lt (i := 6) (b := 4 * code.toNat) (by omega) (base s / 64)
    have hmul : 2 ^ 6 * (base s / 64) = base s := Nat.mul_div_cancel' (Nat.dvd_of_mod_eq_zero hbase)
    rwa [hmul] at hsum
  have hlt : base s + 4 * code.toNat < wordSize s := by omega
  rw [trapTarget_slot henter hv (by omega), hstride, Nat.mod_eq_of_lt hlt, hor]

/-! ## Entry and return (60_exceptions.md R170, R171) -/

/-- Settles O43: the entry saves the pc and the enable, and the return drives the one and restores the other. -/
theorem returnUndoesEntry : Obligations.ReturnUndoesEntry := by
  intro s t isInterrupt code pc tval haligned hpc htaken
  obtain ⟨target, -, rfl⟩ := takeTrap_next htaken
  have hmepc : (s.enterTrap isInterrupt code pc tval target).mepc = pc := alignPc_of_aligned haligned
  have hreturn := exec_trapRet_of_mepc (hmepc.trans (word_toNat pc).symm) hpc haligned
  rw [word_toNat] at hreturn
  refine ⟨_, hreturn, rfl, ?_⟩
  rw [hmepc]
  rfl

/-! ## A poll that takes an interrupt (60_exceptions.md R167) -/

theorem irqPollEvent_of_firstPending {s : State} {pc : Word} {k : IrqSource} (haligned : pc.toNat % 4 = 0)
    (hmie : s.mstatus.mie = true) (hfirst : s.firstPending = some k) :
    irqPollEvent pc s = Machine.takeTrap true (irqCode s.config k) (portWord s pc) 0 s := by
  rw [irqPollEvent, if_pos ((pcAligned_iff pc).mpr haligned), if_pos (deliverable_of_firstPending hmie hfirst), hfirst]

theorem portWord_aligned (s : State) {pc : Word} (h : pc.toNat % 4 = 0) : (portWord s pc).toNat % 4 = 0 :=
  (isPc_truncXlen s.config.xlen h).2

/-- What a poll that takes an interrupt saves, changes and drives, in either mode. -/
theorem irqPollEvent_taken {s : State} {pc : Word} {k : IrqSource} (hdec : Decided s.config) (henter : Enterable s)
    (hslot : causeNumber k < s.config.vecSlots) (haligned : pc.toNat % 4 = 0) (hmie : s.mstatus.mie = true)
    (hfirst : s.firstPending = some k) :
    irqPollEvent pc s = .next { s with
      mepc := portWord s pc, mcause := word (top s + causeNumber k), mtval := 0
      mstatus := { mie := false, mpie := s.mstatus.mie }
      outputs := { resp := some .ok, trapTaken := some true
                   nextPc := some (word (target true (causeNumber k) s)) } } := by
  have hcode := irqCode_toNat hdec k
  have hfits : ¬ (vectored s ∧ true = true ∧ s.config.vecSlots ≤ (irqCode s.config k).toNat) := by
    rw [hcode]
    exact fun ⟨_, _, hle⟩ => Nat.not_lt.mpr hle hslot
  rw [irqPollEvent_of_firstPending haligned hmie hfirst,
    takeTrap_of_target 0 (trapTarget_eq_target henter hfits) (irqCode_lt_top hdec k) (portWord_aligned s haligned),
    hcode, Bool.toNat_true, Nat.mul_one]

/-- The first of the decided order is external, then software, then timer. -/
theorem firstPending_of_decided_order {s : State} (hprio : s.config.irqPrio = [.external, .software, .timer])
    (hpend : pendEn s ≠ 0) : ∃ k, s.firstPending = some k ∧
      causeNumber k = if (pendEn s).testBit 11 then 11 else if (pendEn s).testBit 3 then 3 else 7 := by
  have hexternal : (pendEn s).testBit 11 = s.pendEn .external := testBit_pendEn s .external
  have hsoftware : (pendEn s).testBit 3 = s.pendEn .software := testBit_pendEn s .software
  rw [pendEn_ne_zero_iff, State.anyPendEn] at hpend
  rw [State.firstPending, hprio, hexternal, hsoftware]
  cases he : s.pendEn .external with
  | true => exact ⟨.external, by simp [he], rfl⟩
  | false =>
    cases hs : s.pendEn .software with
    | true => exact ⟨.software, by simp [he, hs], rfl⟩
    | false =>
      have ht : s.pendEn .timer = true := by simpa [he, hs] using hpend
      exact ⟨.timer, by simp [he, hs, ht], rfl⟩

theorem causeNumber_le (k : IrqSource) : causeNumber k ≤ 11 := by cases k <;> decide

/-- Settles O38: the poll takes the first of the order, and its cause is written. -/
theorem externalThenSoftwareThenTimer : Obligations.ExternalThenSoftwareThenTimer := by
  intro s pc rest hready hdec hinputs haligned hprio henter hslots hmie hpend
  obtain ⟨k, hfirst, hcause⟩ := firstPending_of_decided_order hprio hpend
  have hstep := (step_of_ready hready hinputs).trans (irqPollEvent_taken (s := { s with inputs := rest }) hdec henter
    ((causeNumber_le k).trans_lt hslots) haligned hmie hfirst)
  rw [← hcause]
  exact ⟨_, hstep, rfl, rfl⟩

/-! ## One deadline, one interrupt (60_exceptions.md R176) -/

/-- A source that alone is pending and enabled is the first of every order it has a place in. -/
theorem firstPending_of_only {s : State} {k : IrqSource} (hprio : k ∈ s.config.irqPrio) (hk : s.pendEn k = true)
    (honly : ∀ j, s.pendEn j = true → j = k) : s.firstPending = some k := by
  cases hfirst : s.firstPending with
  | none => exact absurd hk (List.find?_eq_none.mp hfirst k hprio)
  | some j => rw [honly j (List.find?_some hfirst)]

theorem pendEn_of_timer_only {s : State} (h : pendEn s = 2 ^ 7) (j : IrqSource) :
    s.pendEn j = true ↔ j = .timer := by
  rw [← testBit_pendEn, h]
  cases j <;> decide

/-- `TRAP_SVC` on the cause of a timer interrupt answers variant timer and keeps the saved address. -/
theorem exec_trapSvc_timer {s : State} (hdec : Decided s.config) (hcause : s.mcause = word (top s + 7)) :
    exec .trapSvc s = .next { s with outputs := okOutputs 1 } := by
  have htop : 15 < top s := lt_top_of_lt_16 s (by decide)
  have hwidth : wordSize s = top s + top s := by
    rw [top_eq, wordSize]
    cases s.config.xlen <;> rfl
  have hvalue : csrValue s .mcause = top s + 7 := csrValue_mcause_of_eq hcause (by omega)
  have hvariant : variantNumber s = 1 := by
    rw [variantNumber, hvalue, if_neg (by omega), if_pos rfl]
  rw [serviceStepsOverOnlyTheEnvironmentCall.2 s hdec, hvalue, if_neg (by omega), hvariant]

theorem step_trapSvc_timer {s : State} {d : Word} {rest : List Input} (h : Ready s)
    (hinputs : s.inputs = .command trapSvcWord d :: rest) (hdec : Decided s.config)
    (hcause : s.mcause = word (top s + 7)) :
    step s = .next { s with inputs := rest, wdata := d, outputs := okOutputs 1 } :=
  (step_command h hinputs (by decide)).trans
    (exec_trapSvc_timer (s := { s with inputs := rest, wdata := d }) hdec hcause)

theorem step_rearm {s : State} {d : Word} {rest : List Input} (h : Ready s)
    (hinputs : s.inputs = .command rearmWord d :: rest) :
    step s = .next { s with
      inputs := rest, wdata := d, lastTime := s.mtime
      mtimecmp := word ((s.mtime.toNat + s.period.toNat) % 2 ^ 64)
      outputs := okOutputs ((s.mtime.toNat + s.period.toNat) % 2 ^ 64) } :=
  (step_command h hinputs (by decide)).trans (exec_tmrRearm { s with inputs := rest, wdata := d })

/-- After the re-arm the request is down, where the period is not 0 and the sum does not wrap. -/
theorem mtip_of_rearmed {s : State} (hcmp : s.mtimecmp = word ((s.mtime.toNat + s.period.toNat) % 2 ^ 64))
    (hperiod : s.period.toNat ≠ 0) (hwrap : s.mtime.toNat + s.period.toNat < 2 ^ 64) : mtip s = 0 := by
  rw [mtip_eq_zero_iff, hcmp, ← add_eq_word, BitVec.toNat_add]
  exact (lt_add_mod_iff s.mtime s.period).mpr ⟨hperiod, hwrap⟩

theorem step_irqPoll_nothing {s : State} {pc : Word} {rest : List Input} (h : Ready s)
    (hinputs : s.inputs = .irqPoll pc :: rest) (haligned : pc.toNat % 4 = 0) (hpc : pc.toNat < wordSize s)
    (hnone : pendEn s = 0) : step s = .next ({ s with inputs := rest }.pollNothing pc) :=
  (step_of_ready h hinputs).trans
    (irqPollEvent_of_not_deliverable (s := { s with inputs := rest }) haligned hpc (.inr hnone))

/-- With the timer request down nothing is pending where the timer was the only one. -/
theorem pendEn_of_timer_served {s t : State} (h : pendEn s = 2 ^ 7) (hmie : t.mie = s.mie) (hmsip : t.msipIn = s.msipIn)
    (hmeip : t.meipIn = s.meipIn) (htimer : mtip t = 0) : pendEn t = 0 := by
  have hsoftware : t.pendEn .software = false := by
    rw [State.pendEn, State.pending, State.enabled, hmsip, hmie]
    exact Bool.eq_false_iff.mpr (mt (pendEn_of_timer_only h .software).mp (by decide))
  have hexternal : t.pendEn .external = false := by
    rw [State.pendEn, State.pending, State.enabled, hmeip, hmie]
    exact Bool.eq_false_iff.mpr (mt (pendEn_of_timer_only h .external).mp (by decide))
  have hmtip : t.mtip = false := by rwa [← mtip_toNat, Bool.toNat_eq_zero] at htimer
  have hno : t.pendEn .timer = false := by rw [State.pendEn, State.pending, hmtip, Bool.false_and]
  rw [pendEn_eq, hsoftware, hexternal, hno]
  rfl

/-- Settles O46: the life of the interrupt, step by step. At the last poll the timer is no longer pending, and the two
levels are as they were. -/
theorem oneDeadlineGivesOneInterrupt : Obligations.OneDeadlineGivesOneInterrupt := by
  intro s p d1 d2 d3 rest hready hdec henter hslots hprio haligned hp hmie hpend hperiod hwrap hinputs
  have honly := pendEn_of_timer_only hpend
  have htimer : s.pendEn .timer = true := (honly .timer).mpr rfl
  have hfirst : s.firstPending = some .timer := firstPending_of_only hprio htimer fun j => (honly j).mp
  have hport : portWord s p = p := portWord_of_lt hp
  have hentry : runSteps 1 s = .next _ := runSteps_snoc (runSteps_zero s)
    ((step_of_ready hready hinputs).trans
      (irqPollEvent_taken (s := { s with inputs := _ }) (k := .timer) hdec henter hslots haligned hmie hfirst))
  have hservice : runSteps 2 s = .next _ := runSteps_snoc hentry (step_trapSvc_timer hready rfl hdec rfl)
  have hrearm : runSteps 3 s = .next _ := runSteps_snoc hservice (step_rearm hready rfl)
  have hreturn : runSteps 4 s = .next _ := runSteps_snoc hrearm
    (step_trapRet hready rfl (hport.trans (word_toNat p).symm) hp haligned)
  have hserved : mtip _ = 0 := mtip_of_rearmed (s := { s with
    lastTime := s.mtime, mtimecmp := word ((s.mtime.toNat + s.period.toNat) % 2 ^ 64) }) rfl hperiod hwrap
  have hpoll : runSteps 5 s = .next _ := runSteps_snoc hreturn
    (step_irqPoll_nothing hready rfl haligned hp (pendEn_of_timer_served hpend rfl rfl rfl hserved))
  exact ⟨_, _, _, _, _, hentry, rfl, rfl, rfl, rfl, hservice, rfl, hport, hrearm, hserved, hreturn,
    congrArg some (word_toNat p), hmie, hpoll, rfl, rfl⟩

/-! ## The enables under sets, clears and events (40_csr_ops.md R110) -/

/-- A bit position of an enable. -/
def IsEnableBit (k : Nat) : Prop := k = 3 ∨ k = 7 ∨ k = 11

/-- XLEN bits of the port hold every enable bit. -/
theorem testBit_operand {s : State} {d : Word} {k : Nat} (hd : s.wdata = d) (hk : IsEnableBit k) :
    (operand s).testBit k = d.toNat.testBit k := by
  have hlt : k < xlenBits s.config.xlen := by
    unfold IsEnableBit at hk
    cases s.config.xlen <;> simp only [xlenBits] <;> omega
  rw [operand, hd, testBit_mod_wordSize _ hlt]

/-- A set or clear of mie, whose operand is `d`, decoded: an update that computes the enable bits of its mask as `set`
and keeps the others. -/
theorem enableOp_some {i : Input} {set : Bool} {mask : Nat} (h : enableOp i = some (set, mask)) :
    ∃ w d command newOf, i = .command w d ∧ decode w = .ok (command (csrNumber .mie)) ∧ IsUpdate false command newOf ∧
      ∀ (s : State) (old k : Nat), s.wdata = d → IsEnableBit k →
        (newOf s old).testBit k = if mask.testBit k then set else old.testBit k := by
  unfold enableOp at h
  split at h
  case h_2 => cases h
  case h_1 w d =>
    split at h
    case h_5 => cases h
    all_goals
      obtain ⟨rfl, hsome⟩ := Option.ite_none_right_eq_some.mp h
      cases hsome
    case h_1 hdecode =>
      refine ⟨w, d, _, _, rfl, hdecode, csrSet_isUpdate, fun s old k hd hk => ?_⟩
      rw [testBit_union, testBit_operand hd hk]
    case h_2 hdecode =>
      refine ⟨w, d, _, _, rfl, hdecode, csrClear_isUpdate, fun s old k hd hk => ?_⟩
      rw [testBit_difference, testBit_operand hd hk]
    case h_3 imm hdecode =>
      exact ⟨w, d, fun sel => .csrSetI sel imm, _, rfl, hdecode, csrSetI_isUpdate imm, fun _ old k _ _ =>
        testBit_union old imm.toNat k⟩
    case h_4 imm hdecode =>
      exact ⟨w, d, fun sel => .csrClearI sel imm, _, rfl, hdecode, csrClearI_isUpdate imm, fun _ old k _ _ =>
        testBit_difference old imm.toNat k⟩

/-- A ready block with the decided numbers and a dispatcher that can be entered, with a slot for each source. -/
structure Serving (s : State) : Prop where
  ready : Ready s
  decided : Decided s.config
  enterable : Enterable s
  slots : 11 < s.config.vecSlots

/-- The step of the input leaves the block serving, with the inputs left as they were and each enable bit as `bitAfter`
says. -/
def Served (s : State) (i : Input) (t : State) : Prop :=
  Serving t ∧ t.inputs = s.inputs ∧
    ∀ k, IsEnableBit k → (csrValue t .mie).testBit k = bitAfter k ((csrValue s .mie).testBit k) i

theorem perform_enableOp {s : State} {i : Input} {set : Bool} {mask : Nat} (h : Serving s)
    (hi : enableOp i = some (set, mask)) : ∃ t, perform i s = .next t ∧ Served s i t := by
  obtain ⟨w, d, command, newOf, rfl, hdecode, hupdate, hnew⟩ := enableOp_some hi
  have hexec := hupdate.exec_completes (s := { s with wdata := d }) (r := .mie) h.decided fun ⟨hr, _⟩ => nomatch hr
  refine ⟨_, (perform_of_decode hdecode d s).trans hexec, ⟨h.ready, h.decided, h.enterable, h.slots⟩, rfl,
    fun k hk => ?_⟩
  have hreached : ReachedBit { s with wdata := d } .mie k := .inl hk
  rw [csrValue_outputs, testBit_stored_of_reached _ hreached, hnew _ _ k rfl hk, bitAfter, hi]
  rfl

/-- An event leaves the enables. -/
theorem served_of_mie {s t : State} {i : Input} (ht : Serving t) (hinputs : t.inputs = s.inputs) (hmie : t.mie = s.mie)
    (hi : enableOp i = none) : Served s i t := by
  refine ⟨ht, hinputs, fun k _ => ?_⟩
  rw [bitAfter, hi, csrValue, csrValue, hmie]

/-- An enterable dispatcher enters a trap with every code that has a slot. -/
theorem takeTrap_of_enterable {s : State} (h : Enterable s) (i : Bool) {code : Word} (pc tval : Word)
    (hslot : ¬ (vectored s ∧ i = true ∧ s.config.vecSlots ≤ code.toNat)) :
    Machine.takeTrap i code pc tval s = .next (s.enterTrap i code pc tval (word (target i code.toNat s))) := by
  rw [Machine.takeTrap, trapTarget_eq_target h hslot]

/-- A trap entry leaves the block serving. -/
theorem serving_enterTrap {s : State} (h : Serving s) (i : Bool) (code pc tval target : Word) :
    Serving (s.enterTrap i code pc tval target) := ⟨h.ready, h.decided, h.enterable, h.slots⟩

theorem perform_exc_served {s : State} (h : Serving s) {pc : Word} (haligned : pc.toNat % 4 = 0) (code tval : Word) :
    ∃ t, perform (.exc code pc tval) s = .next t ∧ Served s (.exc code pc tval) t := by
  rw [perform, excEvent, if_pos ((pcAligned_iff pc).mpr haligned)]
  exact ⟨_, takeTrap_of_enterable h.enterable false _ _ fun ⟨_, hno, _⟩ => Bool.false_ne_true hno,
    served_of_mie (serving_enterTrap h _ _ _ _ _) rfl rfl rfl⟩

theorem perform_irqPoll_served {s : State} (h : Serving s) {pc : Word} (haligned : pc.toNat % 4 = 0) :
    ∃ t, perform (.irqPoll pc) s = .next t ∧ Served s (.irqPoll pc) t := by
  have hnothing : Served s (.irqPoll pc) (s.pollNothing (portWord s pc)) :=
    served_of_mie ⟨h.ready, h.decided, h.enterable, h.slots⟩ rfl rfl rfl
  rw [perform, irqPollEvent, if_pos ((pcAligned_iff pc).mpr haligned)]
  by_cases hdeliver : s.deliverable = true
  case neg => exact ⟨_, if_neg hdeliver, hnothing⟩
  rw [if_pos hdeliver]
  cases s.firstPending with
  | none => exact ⟨_, rfl, hnothing⟩
  | some k =>
    have hslot : (irqCode s.config k).toNat < s.config.vecSlots := by
      rw [irqCode_toNat h.decided]
      exact (causeNumber_le k).trans_lt h.slots
    exact ⟨_, takeTrap_of_enterable h.enterable true _ _ fun ⟨_, _, hle⟩ => Nat.not_lt.mpr hle hslot,
      served_of_mie (serving_enterTrap h _ _ _ _ _) rfl rfl rfl⟩

theorem serving_wakeIfReady {s : State} (h : Serving s) : Serving s.wakeIfReady := by
  obtain ⟨hflag, hawake⟩ := h.ready
  have hstill : s.wakeIfReady.waiting = false := by rw [State.wakeIfReady_waiting, hawake, Bool.false_and]
  exact ⟨⟨hflag, hstill⟩, h.decided, h.enterable, h.slots⟩

theorem perform_served {s : State} {i : Input} (h : Serving s) (hi : (enableOp i).isSome = true ∨ EventOf i) :
    ∃ t, perform i s = .next t ∧ Served s i t := by
  rcases hi with hop | rfl | ⟨msip, meip, rfl⟩ | ⟨pc, rfl, haligned⟩ | ⟨code, pc, tval, rfl, haligned⟩
  · obtain ⟨⟨set, mask⟩, hop⟩ := Option.isSome_iff_exists.mp hop
    exact perform_enableOp h hop
  · have hcounted : Serving { s with mtime := s.mtime + 1, outputs := doneOutputs } :=
      ⟨h.ready, h.decided, h.enterable, h.slots⟩
    exact ⟨_, rfl, served_of_mie (serving_wakeIfReady hcounted) rfl rfl rfl⟩
  · have hdriven : Serving { s with msipIn := msip, meipIn := meip, outputs := doneOutputs } :=
      ⟨h.ready, h.decided, h.enterable, h.slots⟩
    exact ⟨_, rfl, served_of_mie (serving_wakeIfReady hdriven) rfl rfl rfl⟩
  · exact perform_irqPoll_served h haligned
  · exact perform_exc_served h haligned code tval

/-- By induction on the inputs: each step performs the first of them and leaves the block serving. -/
theorem runSteps_served (ops : List Input) : ∀ (s : State) (rest : List Input), Serving s →
    (∀ i ∈ ops, (enableOp i).isSome = true ∨ EventOf i) → s.inputs = ops ++ rest →
    ∃ t, runSteps ops.length s = .next t ∧ t.inputs = rest ∧
      ∀ k, IsEnableBit k → (csrValue t .mie).testBit k = ops.foldl (bitAfter k) ((csrValue s .mie).testBit k) := by
  induction ops with
  | nil => exact fun s rest _ _ hinputs => ⟨s, rfl, hinputs, fun _ _ => rfl⟩
  | cons i ops ih =>
    intro s rest h hops hinputs
    obtain ⟨hi, hops⟩ := List.forall_mem_cons.mp hops
    have hready : Serving { s with inputs := ops ++ rest } := ⟨h.ready, h.decided, h.enterable, h.slots⟩
    obtain ⟨t, hperform, ht, htinputs, hbits⟩ := perform_served hready hi
    obtain ⟨u, hrun, hrest, hubits⟩ := ih t rest ht hops htinputs
    refine ⟨u, ?_, hrest, fun k hk => ?_⟩
    · rw [List.length_cons, runSteps_succ _ ((step_of_ready h.ready hinputs).trans hperform)]
      exact hrun
    · rw [hubits k hk, hbits k hk]
      rfl

/-- Settles O18: the run serves its inputs. -/
theorem lastSetOrClearOfABitWins : Obligations.LastSetOrClearOfABitWins :=
  fun ops s rest hready hdec henter hslots hops hinputs =>
    runSteps_served ops s rest ⟨hready, hdec, henter, hslots⟩ hops hinputs

end Sys2Proof.Proofs.Interrupts
end
